-- ==== Sys2Proof/Word.lean ====
section
/-! DEFINITION. The value types of the block: the 32-bit command word and register word (R55, R29), the
byte of a channel and of a frame (R6, R43), the pixel (R6, R22) and the frame (R31). -/

namespace Sys2Proof

/-- A command word (R55) or the value of a register (R29): 32 bits. -/
abbrev Word := BitVec 32

/-- One 8-bit channel value (R6), and one byte of a frame (R43: each channel is one whole byte). -/
abbrev Byte := BitVec 8

/-- A glyph bitmap (R23): bit `5*row + col` is 1 when cell (row, col) is on. -/
abbrev Bitmap := BitVec 25

/-- The three channels of a pixel (R6). -/
inductive Channel where
  | r
  | g
  | b
deriving DecidableEq, Repr, Inhabited

/-- A Pixel `(r, g, b)`: three 8-bit channels, no alpha (R6, R22). -/
structure Pixel where
  r : Byte
  g : Byte
  b : Byte
deriving DecidableEq, Repr, Inhabited

/-- One frame as sent: a list of bytes (R31). That each frame holds exactly 75 bytes is an invariant of
the machine (Safety.lean), not part of the type. -/
abbrev Frame := List Byte

end Sys2Proof
end

