-- ==== Sys2Proof/Syntax.lean ====
section
/-! DEFINITION. The commands of the block (R56, R57), the fault codes it raises (R120), and the source
form an assembler reads (R63 to R65). -/

namespace Sys2Proof

/-- The five commands of R56, one constructor for each row of the opcode table, with the operand fields of
R57 at their encoded widths (R58: every field is an unsigned number used as it stands). -/
inductive Instr where
  /-- `MAP row, col` (R74). -/
  | map (row col : BitVec 3)
  /-- `SETPX idx, r, g, b` (R80). -/
  | setpx (idx : BitVec 5) (r g b : Byte)
  /-- `FLUSH` (R81). -/
  | flush
  /-- `CLEAR` (R83). -/
  | clear
  /-- `DRAW glyph` (R101). -/
  | draw (glyph : BitVec 4)
deriving DecidableEq, Repr, Inhabited

/-- The fault causes of R120. Codes 0, 6 and 7 name no cause. -/
inductive FaultCode where
  /-- code 1: `w[31:29]` is 000, 110 or 111 (R60) -/
  | illegalOpcode
  /-- code 2: a reserved bit of a legal command is 1 (R59) -/
  | reservedBits
  /-- code 3: MAP with `row` > 4 or `col` > 4 (R74) -/
  | coordRange
  /-- code 4: SETPX with `idx` > 24 (R80) -/
  | indexRange
  /-- code 5: DRAW with `glyph` >= 11 (R101) -/
  | glyphRange
deriving DecidableEq, Repr, Inhabited

/-- The glyph names of R65: `seta1` .. `seta8`, then this spec's names for the variant-2 glyphs. -/
inductive GlyphName where
  | seta1
  | seta2
  | seta3
  | seta4
  | seta5
  | seta6
  | seta7
  | seta8
  | animA
  | animB
  | animC
deriving DecidableEq, Repr, Inhabited

/-- One line of assembler source: the forms of R63, operands as plain numbers, and the pseudo-commands of
R64. The block never sees these: an assembler turns them into command words. -/
inductive Asm where
  | map (row col : Nat)
  | setpx (idx r g b : Nat)
  | flush
  | clear
  | draw (glyph : Nat)
  /-- `DRAW name`: R64, with the ids of R65 -/
  | drawName (name : GlyphName)
  /-- `SETRC row, col, r, g, b`: SETPX at the index of a cell (R64) -/
  | setrc (row col r g b : Nat)
  /-- `FILL r, g, b`: 25 SETPX commands, then FLUSH (R64) -/
  | fill (r g b : Nat)
  /-- `OFF`: CLEAR (R64) -/
  | off
deriving DecidableEq, Repr, Inhabited

end Sys2Proof
end

