-- ==== Sys2Proof/Decode.lean ====
section
/-! DEFINITION. Decoding a command word (R61), encoding a command (R57), and the opcode table's rows. -/

namespace Sys2Proof

/-- The operation field `op = w[31:29]` (R55). -/
def opField (w : Word) : BitVec 3 := w.extractLsb 31 29

/-- `op` is 000, 110 or 111: the word is illegal whatever its other bits are (R60). -/
def opIllegal (w : Word) : Bool :=
  opField w == 0b000#3 || opField w == 0b110#3 || opField w == 0b111#3

/-- A reserved bit of the word's command is 1 (R57, R59): MAP `w[28:6]`, FLUSH and CLEAR `w[28:0]`,
DRAW `w[28:4]`; SETPX has none. -/
def reservedSet (w : Word) : Bool :=
  (opField w == 0b001#3 && w.extractLsb 28 6 != 0#23) ||
  (opField w == 0b011#3 && w.extractLsb 28 0 != 0#29) ||
  (opField w == 0b100#3 && w.extractLsb 28 0 != 0#29) ||
  (opField w == 0b101#3 && w.extractLsb 28 4 != 0#25)

/-- The command that a word with a legal `op` and clear reserved bits stands for, with its operand fields
(R56, R57). -/
def dispatchWord (w : Word) : Instr :=
  if opField w == 0b001#3 then .map (w.extractLsb 5 3) (w.extractLsb 2 0)
  else if opField w == 0b010#3 then
    .setpx (w.extractLsb 28 24) (w.extractLsb 23 16) (w.extractLsb 15 8) (w.extractLsb 7 0)
  else if opField w == 0b011#3 then .flush
  else if opField w == 0b100#3 then .clear
  else .draw (w.extractLsb 3 0)

/-- Decode is total on all 2^32 words, and the first check that applies decides the outcome (R61, R124).
The range checks of codes 3, 4 and 5 belong to the command's own meaning. -/
def decode (w : Word) : Except FaultCode Instr :=
  if opIllegal w then .error .illegalOpcode
  else if reservedSet w then .error .reservedBits
  else .ok (dispatchWord w)

/-- The one word of a command: the patterns of R57, bit 31 first. -/
def encode : Instr → Word
  | .map row col => 0b001#3 ++ 0#23 ++ row ++ col
  | .setpx idx r g b => 0b010#3 ++ idx ++ r ++ g ++ b
  | .flush => 0b011#3 ++ 0#29
  | .clear => 0b100#3 ++ 0#29
  | .draw glyph => 0b101#3 ++ 0#25 ++ glyph

/-- One row of the opcode table: a word belongs to it when the bits under `mask` are those of `value`
(R61: the `match`/`mask` of a row includes its reserved bits). -/
structure TableRow where
  value : Word
  mask : Word
deriving DecidableEq, Repr

/-- The opcode table, in its own order: MAP, SETPX, FLUSH, CLEAR, DRAW. -/
def tableRows : List TableRow :=
  [⟨0x20000000#32, 0xFFFFFFC0#32⟩, ⟨0x40000000#32, 0xE0000000#32⟩, ⟨0x60000000#32, 0xFFFFFFFF#32⟩,
   ⟨0x80000000#32, 0xFFFFFFFF#32⟩, ⟨0xA0000000#32, 0xFFFFFFF0#32⟩]

/-- The word belongs to the row. -/
def rowMatches (w : Word) (row : TableRow) : Bool := w &&& row.mask == row.value

/-- The table row of a command. -/
def rowOf : Instr → TableRow
  | .map _ _ => ⟨0x20000000#32, 0xFFFFFFC0#32⟩
  | .setpx _ _ _ _ => ⟨0x40000000#32, 0xE0000000#32⟩
  | .flush => ⟨0x60000000#32, 0xFFFFFFFF#32⟩
  | .clear => ⟨0x80000000#32, 0xFFFFFFFF#32⟩
  | .draw _ => ⟨0xA0000000#32, 0xFFFFFFF0#32⟩

/-- What the decoder reads from an instruction of the opcode table whose bits are `w`; bits from `nbits`
up are 0. Every command is one 32-bit word moved as one value (R55, R43), so there are no words or bytes
to lay out. -/
def decodeTableWord (nbits w : Nat) : Option Instr :=
  match decode (BitVec.ofNat 32 (w % 2 ^ nbits)) with
  | .ok i => some i
  | .error _ => none

end Sys2Proof
end

