-- ==== Sys2Proof/Config.lean ====
section
/-! DEFINITION. What a build of the block fixes (R8, R33), and the free values of the model.

The fixed rows of R8 are literals where they are used: 5 rows and 5 columns (`Fin 5`), 25 pixels
(`Fin 25`), 8-bit channels (`Byte`), 75 bytes in a frame, 11 glyphs (`Fin 11`), 32-bit commands (`Word`);
`ON_COLOR` and `OFF_COLOR` are below. `TX_BITRATE` is a property of the downstream channel and not of the
block (R8), so nothing here names it. The rows that R8 marks OPEN are constants with no body: nothing can
be proved about their values, so a statement holds for every build. -/

namespace Sys2Proof

/-- A permutation of the three channels: the orders `WIRE_ORDER` can take (R8, D10). -/
inductive WireOrder where
  | rgb
  | rbg
  | grb
  | gbr
  | brg
  | bgr
deriving DecidableEq, Repr, Inhabited

/-- `ON_COLOR` = (0, 0, 255) (R8, R24). -/
def Config.onColor : Pixel := ⟨0, 0, 255⟩

/-- `OFF_COLOR` = (0, 0, 0) (R8, R24); also the value of every pixel at reset (R22) and after CLEAR (R83). -/
def Config.offColor : Pixel := ⟨0, 0, 0⟩

/-- `GLYPH_ROM` (R23, D9): OPEN, one 25-bit bitmap per glyph id 0..10. It is constant, so it is no part of
the state, and no command can write it (R51). DESIGN CHOICE, safe: log entry 8. -/
opaque Config.glyphRom : Fin 11 → Bitmap

/-- `WIRE_ORDER` (R82, D10): OPEN, the order in which the three channel bytes of a pixel go out.
DESIGN CHOICE, safe: log entry 9. -/
opaque Config.wireOrder : WireOrder

/-- `T_GAP` (R145, D12): OPEN, the least idle time between frames, counted here in clock cycles.
DESIGN CHOICE, safe: log entry 10. -/
opaque Config.tGap : Nat

/-- Free value (R149, U14): the cycles beyond the first that pass up to the execution of the command taken,
or over the idle wait, of the model's n-th step that lets time pass. DESIGN CHOICE, safe: nothing
constrains it. Log entry 7. -/
opaque Config.latency : Nat → Nat

end Sys2Proof
end

