-- ==== Sys2Proof/Machine/State.lean ====
section
/-! DEFINITION. The state of the block (10_state.md), its input ports, and the reasons a step of the model
can stop. -/

namespace Sys2Proof.Machine

open Sys2Proof

/-- The stored bits of `STATUS` (R25). Bits 31:5 of the register always read 0 and are no storage; the
register's word is `Status.word` (Flags.lean). The block is halted exactly when `fault` is 1 (R121). -/
structure Status where
  /-- `STATUS.BUSY`, bit 0 (R25, R30) -/
  busy : Bool
  /-- `STATUS.FAULT`, bit 1, sticky (R25) -/
  fault : Bool
  /-- `STATUS.FCODE`, bits 4:2, sticky (R25) -/
  fcode : BitVec 3
deriving DecidableEq, Repr, Inhabited

/-- Everything the spec gives the block, the input ports a step reads, and the model's own counter.
`GLYPH_ROM`, `WIRE_ORDER` and `T_GAP` are configuration (R33) and stand in Config.lean. -/
structure State where
  /-- `PB[0..24]`, the pixel buffer (R22) -/
  pb : Vector Pixel 25
  /-- `STATUS`, register address 0 (R25) -/
  status : Status
  /-- `LAST_IDX`, register address 1: bits 4:0; bits 31:5 read 0 (R26) -/
  lastIdx : BitVec 5
  /-- `FAULT_CMD`, register address 2 (R27) -/
  faultCmd : Word
  /-- `GAP_PENDING` (R30) -/
  gapPending : Bool
  /-- the gap timer: the cycles of idle line counted since the last frame or reset (R128, R140).
  DESIGN CHOICE for its unit, log entry 7. -/
  gapTimer : Nat
  /-- the frame in progress: its bytes that the channel has not yet accepted, the next one first
  (R84, R140; `tx_data` and `tx_valid` of R129). Between steps it is empty unless the block is stuck in a
  frame. DEDUCED, log entry 12. -/
  tx : List Byte
  /-- `TXH`, the transmit history, oldest frame first (R31) -/
  txh : List Frame
  /-- input: the words the host holds for the command port, oldest first (R129, R144). DESIGN CHOICE,
  log entry 2. -/
  cmdIn : List Word
  /-- input: `rst` is asserted for the next step (R140). DESIGN CHOICE, safe: log entry 3. -/
  rst : Bool
  /-- input: how many more bytes the downstream channel ever accepts, however long it takes over each; `none`
  when it accepts every byte it is offered (R84, R129, R149). DESIGN CHOICE, log entry 4. -/
  txAccept : Option Nat
  /-- the model's own: how many free latencies have been used (R149). DESIGN CHOICE, log entry 7. -/
  epoch : Nat
deriving DecidableEq, Repr, Inhabited

/-- Why a step of the model has no next state. None is a fault that a command raises: those are taken as
next states (R121). -/
inductive Fault where
  /-- Raised by `step` on a halted block, `STATUS.FAULT` = 1, while reset is not asserted: no command is
  accepted any more, and R123 has a model treat the halted state as a fault outcome that is never final.
  Safe: the hardware does nothing there but keep its registers. -/
  | halted
  /-- Raised by `step` on a stuck block while reset is not asserted: `STATUS.BUSY` = 1 between steps, a frame
  command whose bytes the channel never accepts (R84). It waits forever, the model has no next step (the
  treatment `stuck` of U10), and only reset leaves the state. It is no fault of the block: `STATUS.FAULT`
  stays 0 and nothing is recorded; the host's outcomes say "no next step" by a named reason only. Safe: the
  hardware does nothing there but wait. Log entry 5. -/
  | stuck
deriving DecidableEq, Repr

/-- Why the model has no meaning for an instruction. No arm of this model answers with it. -/
inductive Refusal where
  /-- Raised by a dispatch arm whose instruction has no meaning yet. Safe: the model stops. -/
  | notModelled (mnemonic : String)
deriving DecidableEq, Repr

/-- The pixel buffer with every entry (0,0,0): its reset value (R22, R140). -/
def blankBuffer : Vector Pixel 25 := Vector.replicate 25 Config.offColor

/-- The machine right after reset (R140): the values of R140, no frame in progress, an empty history, and
the input ports with nothing offered, reset released and a channel that accepts every byte (log entries
2, 3, 4 and 7 for the fields that are the model's own). -/
def State.reset : State where
  pb := blankBuffer
  status := ⟨false, false, 0#3⟩
  lastIdx := 0#5
  faultCmd := 0#32
  gapPending := true
  gapTimer := 0
  tx := []
  txh := []
  cmdIn := []
  rst := false
  txAccept := none
  epoch := 0

end Sys2Proof.Machine
end

