-- ==== Sys2Proof/Machine/Flags.lean ====
section
/-! DEFINITION. The block has no condition codes or arithmetic flags (R32): its only status bits are the
fields of `STATUS` (R25), written by command acceptance, command completion and fault entry. -/

namespace Sys2Proof.Machine

open Sys2Proof

/-- `STATUS` as the 32-bit word of register address 0 (R25): bit 0 BUSY, bit 1 FAULT, bits 4:2 FCODE, bits
31:5 zero. -/
def Status.word (st : Status) : Word :=
  0#27 ++ st.fcode ++ BitVec.ofBool st.fault ++ BitVec.ofBool st.busy

/-- `STATUS.BUSY <- b`, the other fields kept (R30). -/
def Status.withBusy (st : Status) (b : Bool) : Status := { st with busy := b }

/-- The number of a fault cause in `STATUS.FCODE` (R120). -/
def faultNumber : FaultCode → BitVec 3
  | .illegalOpcode => 1#3
  | .reservedBits => 2#3
  | .coordRange => 3#3
  | .indexRange => 4#3
  | .glyphRange => 5#3

/-- The fields of `STATUS` that fault entry writes (R121): FAULT <- 1, FCODE <- code, BUSY <- 0. -/
def Status.faulted (code : FaultCode) : Status := ⟨false, true, faultNumber code⟩

/-- `STATUS` at reset: 0x00000000 (R140). -/
def Status.cleared : Status := ⟨false, false, 0#3⟩

end Sys2Proof.Machine
end

