-- ==== Sys2Proof/Machine/Operands.lean ====
section
/-! DEFINITION. The operand forms of the commands: the serpentine decoder and its inverse
(40_matrix_addressing.md), the range checks of R58, the glyph multiplexer (R100), and the bytes of a pixel
and of a buffer (R82). -/

namespace Sys2Proof.Machine

open Sys2Proof

/-- `Index(row, col)` (R70): even rows count down from left to right, odd rows count up. Its domain is
0..4 for both coordinates (R71), and it is not defined outside. -/
def index (row col : Fin 5) : Fin 25 :=
  if row.val % 2 = 0 then ⟨24 - (5 * row.val + col.val), by omega⟩
  else ⟨24 - (5 * row.val + (4 - col.val)), by omega⟩

/-- `Cell(i)` (R73), the inverse of `index`. The block does not implement it; statements use it. -/
def cell (i : Fin 25) : Fin 5 × Fin 5 :=
  let k := 24 - i.val
  let row : Fin 5 := ⟨k / 5, by omega⟩
  let c := k % 5
  if row.val % 2 = 0 then (row, ⟨c, by omega⟩) else (row, ⟨4 - c, by omega⟩)

/-- The range check of MAP (R74): the cell that the two fields name, if both are in 0..4. -/
def coordinate (row col : BitVec 3) : Option (Fin 5 × Fin 5) :=
  if h : row.toNat < 5 ∧ col.toNat < 5 then some (⟨row.toNat, h.1⟩, ⟨col.toNat, h.2⟩) else none

/-- The range check of SETPX (R80): the buffer entry that the field names; 25..31 name nothing (R41). -/
def bufferIndex (idx : BitVec 5) : Option (Fin 25) :=
  if h : idx.toNat < 25 then some ⟨idx.toNat, h⟩ else none

/-- The range check of DRAW (R101): the glyph id that the field names; 11..15 name nothing (R41). -/
def glyphId (glyph : BitVec 4) : Option (Fin 11) :=
  if h : glyph.toNat < 11 then some ⟨glyph.toNat, h⟩ else none

/-- The cells in row-major order: the loop of DRAW (R101, D22). -/
def cells : List (Fin 5 × Fin 5) :=
  (List.finRange 5).flatMap fun row => (List.finRange 5).map fun col => (row, col)

/-- The buffer indices in ascending order: the loops `for i in 0..24` of R82 and R83. -/
def bufferIndices : List (Fin 25) := List.finRange 25

/-- `GlyphPixel` (R100) of the glyph whose bitmap is `bits`: bit `5*row + col` chooses the colour. -/
def glyphPixel (bits : Bitmap) (row col : Fin 5) : Pixel :=
  if bits.getLsbD (5 * row.val + col.val) then Config.onColor else Config.offColor

/-- `PB[i]`, read (R9, R22): the whole 24-bit entry. -/
def pixelAt (pb : Vector Pixel 25) (i : Fin 25) : Pixel := pb[i.val]'i.isLt

/-- `PB[i] <- p` (R9, R22): the whole 24-bit entry, all three channels together (R45). -/
def pixelSet (pb : Vector Pixel 25) (i : Fin 25) (p : Pixel) : Vector Pixel 25 := pb.set i.val p i.isLt

/-- One channel of a pixel (R6). -/
def channelOf (p : Pixel) : Channel → Byte
  | .r => p.r
  | .g => p.g
  | .b => p.b

/-- The channel `c_k` that `WIRE_ORDER` sends in place `k` of a pixel's three bytes (R82). -/
def wireChannel : WireOrder → Fin 3 → Channel
  | .rgb, 0 => .r | .rgb, 1 => .g | .rgb, 2 => .b
  | .rbg, 0 => .r | .rbg, 1 => .b | .rbg, 2 => .g
  | .grb, 0 => .g | .grb, 1 => .r | .grb, 2 => .b
  | .gbr, 0 => .g | .gbr, 1 => .b | .gbr, 2 => .r
  | .brg, 0 => .b | .brg, 1 => .r | .brg, 2 => .g
  | .bgr, 0 => .b | .bgr, 1 => .g | .bgr, 2 => .r

/-- The three bytes of one pixel in wire order (R82); each channel is one whole byte, sent unchanged
(R43, R85). -/
def pixelBytes (order : WireOrder) (p : Pixel) : List Byte :=
  [channelOf p (wireChannel order 0), channelOf p (wireChannel order 1),
   channelOf p (wireChannel order 2)]

/-- `Frame()` (R82) of a buffer under a wire order: ascending buffer index, three bytes a pixel. -/
def frameOf (order : WireOrder) (pb : Vector Pixel 25) : Frame :=
  bufferIndices.flatMap fun i => pixelBytes order (pixelAt pb i)

/-- The triple at pixel position `i` of a frame, counting from 0 (R75, R82). -/
def frameTriple (frame : Frame) (i : Fin 25) : List Byte := (frame.drop (3 * i.val)).take 3

/-- What R75 reads as shown at a grid cell: the triple at the pixel position `i` whose LED is wired at that
cell, `Cell(i) = (row, col)`. The light itself is outside the block (R132). -/
def shownAt (frame : Frame) (row col : Fin 5) : List Byte :=
  match bufferIndices.find? (fun i => cell i == (row, col)) with
  | some i => frameTriple frame i
  | none => []

/-- The loop of CLEAR (R83): every entry becomes (0,0,0). -/
def clearedBuffer (pb : Vector Pixel 25) : Vector Pixel 25 :=
  bufferIndices.foldl (fun acc i => pixelSet acc i Config.offColor) pb

/-- The loop of DRAW (R101): every cell's colour goes to the entry the decoder gives for the cell. -/
def drawnBuffer (bits : Bitmap) (pb : Vector Pixel 25) : Vector Pixel 25 :=
  cells.foldl (fun acc rc => pixelSet acc (index rc.1 rc.2) (glyphPixel bits rc.1 rc.2)) pb

end Sys2Proof.Machine
end

