-- ==== Sys2Proof/Machine/Ops.lean ====
section
/-! DEFINITION. The shared operations of the machine: writing pixels and `LAST_IDX`, the frame primitive of
FLUSH, CLEAR and DRAW (R82, R84), the gap timer (R145), fault entry (R121), and reset (R140), which is the
only return from a fault (R123). -/

namespace Sys2Proof.Machine

open Sys2Proof

/-! ### Completion and the buffer -/

/-- A command completes: `STATUS.BUSY` returns to 0 (R30). -/
def State.complete (s : State) : State := { s with status := s.status.withBusy false }

/-- `PB[i] <- p`: one whole entry, three channels together (R45, R80). -/
def State.setPixel (s : State) (i : Fin 25) (p : Pixel) : State :=
  { s with pb := pixelSet s.pb i p }

/-- `LAST_IDX <- zext_32(i)` (R74): the stored bits 4:0. -/
def State.setLastIdx (s : State) (i : Fin 25) : State := { s with lastIdx := BitVec.ofNat 5 i.val }

/-- `PB` of all entries (0,0,0): the loop of R83. -/
def State.clearPixels (s : State) : State := { s with pb := clearedBuffer s.pb }

/-- `PB` of the glyph with bitmap `bits`: the loop of R101. -/
def State.drawPixels (s : State) (bits : Bitmap) : State := { s with pb := drawnBuffer bits s.pb }

/-! ### Time and the inter-frame gap -/

/-- At least one cycle passes with the transmit line idle (R149: an unspecified number), the gap timer
counts it, and `GAP_PENDING` clears once `T_GAP` has elapsed (R30, R128). DESIGN CHOICE, unsafe where a
claim needs a definite duration: log entry 7. -/
def State.passTime (s : State) : State :=
  let elapsed := s.gapTimer + (Config.latency s.epoch + 1)
  { s with
    epoch := s.epoch + 1
    gapTimer := elapsed
    gapPending := s.gapPending && decide (elapsed < Config.tGap) }

/-- `wait until GAP_PENDING = 0` (R82, R145): the line stays idle until the timer has counted `T_GAP`. The
wait ends because `T_GAP` is finite: DEDUCED, log entry 21. With no gap pending the timer has already
counted `T_GAP` (the invariant `GapKept`), and nothing changes. -/
def State.awaitGap (s : State) : State :=
  { s with gapTimer := max s.gapTimer Config.tGap, gapPending := false }

/-! ### Frames -/

/-- `Frame()` (R82): the frame of the current buffer. -/
def State.frame (s : State) : Frame := frameOf Config.wireOrder s.pb

/-- `TxByte` (R9, R84) for each byte in turn: the channel accepts the bytes it has room for, and the first
byte it does not accept is held with all that follow. The answer is what is left, and what the channel
still accepts. -/
def transmit : List Byte → Option Nat → List Byte × Option Nat
  | [], a => ([], a)
  | v :: vs, some 0 => (v :: vs, some 0)
  | _ :: vs, some (n + 1) => transmit vs (some n)
  | _ :: vs, none => transmit vs none

/-- The 75th byte has been accepted: `TXH <- TXH ++ [bytes]`, `GAP_PENDING <- 1` with the timer restarted,
and the command completes (R82, R84). The bytes are those of the buffer, which cannot change while a frame
is in flight (R82). -/
def State.finishFrame (s : State) : State :=
  { s with
    txh := s.txh ++ [s.frame]
    gapPending := true
    gapTimer := 0
    tx := []
    status := s.status.withBusy false }

/-- Offer the bytes of the frame in progress to the channel, each held until it is accepted (R84), all within
the command's one step (R10). When all are accepted the command completes. When the channel never accepts
one, the command never completes: the block is stuck with `STATUS.BUSY` = 1 and the bytes from that one on
held, which is not a fault (DESIGN CHOICE, safe: log entry 5). -/
def State.sendBytes (s : State) : State :=
  let left := transmit s.tx s.txAccept
  match left.1 with
  | [] => { s with txAccept := left.2 }.finishFrame
  | v :: vs => { s with tx := v :: vs, txAccept := left.2, status := s.status.withBusy true }

/-- The frame of the current buffer becomes the frame in progress (R82: it is built when the command
starts). -/
def State.startFrame (s : State) : State := { s with tx := s.frame }

/-- `EmitFrame(Frame())` (R82): wait out the gap, then send the frame of the current buffer. -/
def State.emitFrame (s : State) : State := s.awaitGap.startFrame.sendBytes

/-! ### Taking a fault, and reset -/

/-- `raise Fault(code, w)` (R121): exactly these writes, and nothing else. The block is halted from then on,
since halted is `STATUS.FAULT` = 1. -/
def State.raise (s : State) (code : FaultCode) (w : Word) : State :=
  { s with status := Status.faulted code, faultCmd := w }

/-- Reset (R140), in every state: the block's own state takes its reset values, a frame in progress is
aborted and not appended, and the history restarts. The command port, the channel and the latency counter
belong to the outside and stay; one cycle of `rst` is used up (D33). It is the only way out of the halted
state (R123). -/
def State.resetBlock (s : State) : State :=
  { s with
    pb := blankBuffer
    status := Status.cleared
    lastIdx := 0#5
    faultCmd := 0#32
    gapPending := true
    gapTimer := 0
    tx := []
    txh := []
    rst := false }

end Sys2Proof.Machine
end

