-- ==== Sys2Proof/Machine/GlyphRenderer.lean ====
section
/-! DEFINITION. The meaning of DRAW (42_glyph_renderer.md). -/

namespace Sys2Proof.Machine

open Sys2Proof

/-- DRAW (R101): every cell of the glyph goes through the decoder into the buffer, then
`EmitFrame(Frame())`; GLYPH_RANGE with the command's own word when the id is 11..15, and then nothing else
is written (R122). -/
def execDraw (glyph : BitVec 4) (s : State) : Host.Outcome State Fault Refusal :=
  match glyphId glyph with
  | some g => .next (s.drawPixels (Config.glyphRom g)).emitFrame
  | none => .next (s.raise .glyphRange (encode (.draw glyph)))

end Sys2Proof.Machine
end

