-- ==== Sys2Proof/Machine/MatrixAddressing.lean ====
section
/-! DEFINITION. The meaning of MAP (40_matrix_addressing.md). -/

namespace Sys2Proof.Machine

open Sys2Proof

/-- MAP (R74): `LAST_IDX <- Index(row, col)`; COORD_RANGE with the command's own word when a coordinate is
above 4, and then nothing else is written (R122). -/
def execMap (row col : BitVec 3) (s : State) : Host.Outcome State Fault Refusal :=
  match coordinate row col with
  | some rc => .next (s.setLastIdx (index rc.1 rc.2)).complete
  | none => .next (s.raise .coordRange (encode (.map row col)))

end Sys2Proof.Machine
end

