-- ==== Sys2Proof/Machine/PixelBuffer.lean ====
section
/-! DEFINITION. The meanings of SETPX, FLUSH and CLEAR (41_pixel_buffer.md). -/

namespace Sys2Proof.Machine

open Sys2Proof

/-- SETPX (R80): `PB[idx] <- (r, g, b)`; INDEX_RANGE with the command's own word when `idx` is 25..31, and
then nothing else is written (R122). -/
def execSetpx (idx : BitVec 5) (r g b : Byte) (s : State) : Host.Outcome State Fault Refusal :=
  match bufferIndex idx with
  | some i => .next (s.setPixel i ⟨r, g, b⟩).complete
  | none => .next (s.raise .indexRange (encode (.setpx idx r g b)))

/-- FLUSH (R81): `EmitFrame(Frame())`. -/
def execFlush (s : State) : Host.Outcome State Fault Refusal := .next s.emitFrame

/-- CLEAR (R83): every entry becomes (0,0,0), then `EmitFrame(Frame())`. -/
def execClear (s : State) : Host.Outcome State Fault Refusal := .next s.clearPixels.emitFrame

end Sys2Proof.Machine
end

