-- ==== Sys2Proof/Machine/Dispatch.lean ====
section
/-! DEFINITION. One arm for each command of the opcode table (R56). -/

namespace Sys2Proof.Machine

open Sys2Proof

def exec (i : Instr) (s : State) : Host.Outcome State Fault Refusal :=
  match i with
  | .map row col => Sys2Proof.Machine.execMap row col s
  | .setpx idx r g b => Sys2Proof.Machine.execSetpx idx r g b s
  | .flush => Sys2Proof.Machine.execFlush s
  | .clear => Sys2Proof.Machine.execClear s
  | .draw glyph => Sys2Proof.Machine.execDraw glyph s

end Sys2Proof.Machine
end

