-- ==== Sys2Proof/Machine/Ports.lean ====
section
/-! DEFINITION. The ports of the block (R129): what the host and the channel see of a state, and what the
host can do to the command port and to reset. -/

namespace Sys2Proof.Machine

open Sys2Proof

/-- The register read port (R29): address 0 gives `STATUS`, 1 `LAST_IDX`, 2 `FAULT_CMD`, 3 zero. A read has
no side effect: it answers a value and no state. -/
def State.readReg (s : State) (ra : BitVec 2) : Word :=
  if ra = 0#2 then s.status.word
  else if ra = 1#2 then 0#27 ++ s.lastIdx
  else if ra = 2#2 then s.faultCmd
  else 0#32

/-- `cmd_ready` (R129): 0 while BUSY = 1, while halted and during reset. -/
def State.cmdReady (s : State) : Bool := !s.status.busy && !s.status.fault && !s.rst

/-- `cmd_valid` (R129): the host offers a word. -/
def State.cmdValid (s : State) : Bool := !s.cmdIn.isEmpty

/-- `cmd_data` (R129): the word offered, if there is one. -/
def State.cmdData (s : State) : Option Word := s.cmdIn.head?

/-- `tx_valid` (R129): a byte of a frame in progress is offered to the channel (between steps, only in a stuck
block). -/
def State.txValid (s : State) : Bool := !s.tx.isEmpty

/-- `tx_data` (R129): the byte offered, if there is one. -/
def State.txData (s : State) : Option Byte := s.tx.head?

/-- The host offers one more word, after those it already holds for the port (R21, R144). -/
def State.offer (s : State) (w : Word) : State := { s with cmdIn := s.cmdIn ++ [w] }

/-- Reset is asserted for the next step (R140). -/
def State.assertReset (s : State) : State := { s with rst := true }

/-- The word at the head of the command port is taken (R144): the host's next word stands there, the time
up to the command's execution passes, and `STATUS.BUSY` becomes 1 (R30). -/
def State.accept (s : State) (rest : List Word) : State :=
  { s.passTime with cmdIn := rest, status := s.status.withBusy true }

end Sys2Proof.Machine
end

