-- ==== Sys2Proof/Machine/Step.lean ====
section
/-! DEFINITION. One step of the machine: one whole command (R10), or what the block does when it can take
none. -/

namespace Sys2Proof.Machine

open Sys2Proof

/-- The block executes an accepted word (R61): the decode checks first, whose faults it raises, then the
command's own meaning. -/
def runWord (w : Word) (s : State) : Host.Outcome State Fault Refusal :=
  match decode w with
  | .ok i => exec i s
  | .error code => .next (s.raise code w)

/-- One step. Reset wins in every state (R140). A halted block takes no command (R123). A block that is busy
between steps is stuck in a frame command that never completes, and has no next step (R84, U10; log
entry 5). Otherwise the offered word is accepted and its command runs to the end as one atomic step (R10,
R144), and with no word offered the block waits with its state kept (R131). The order of the cases is
DEDUCED, log entry 17. -/
def step (s : State) : Host.Outcome State Fault Refusal :=
  if s.rst then .next s.resetBlock
  else if s.status.fault then .fault .halted
  else if s.status.busy then .fault .stuck
  else
    match s.cmdIn with
    | [] => .next s.passTime
    | w :: rest => runWord w (s.accept rest)

/-- `s` with the command word `w` (bits from `nbits` up are 0) first on the command port, and the port ready
to take it: reset not asserted, not busy, not halted. The block fetches nothing (R21); this stands for the
host's offer of one word (DESIGN CHOICE, log entries 2 and 20). -/
def State.withFetchWord (s : State) (nbits w : Nat) : State :=
  { s with
    cmdIn := BitVec.ofNat 32 (w % 2 ^ nbits) :: s.cmdIn
    rst := false
    status := { s.status with busy := false, fault := false } }

end Sys2Proof.Machine
end

