-- ==== Sys2Proof/WellFormed.lean ====
section
/-! DEFINITION. What makes a term well formed.

A term of `Instr` has no ill-formed value: its operand fields have their encoded widths as types (R57), and
R63 lets a value that fits its field assemble even where the block then faults on it. Two checks remain and
stand here: the valid ranges of R58, which the block checks when it runs the command, and the checks that
an assembler makes on a source line before there is a command at all (R63, R64). -/

namespace Sys2Proof

/-- The command's operands lie in their valid ranges (R58): `row` and `col` in 0..4, `idx` in 0..24, `glyph`
in 0..10. A command outside its range is still encoded and decoded; the block faults on it (R120). -/
def Instr.inRange : Instr → Bool
  | .map row col => decide (row.toNat ≤ 4) && decide (col.toNat ≤ 4)
  | .setpx idx _ _ _ => decide (idx.toNat ≤ 24)
  | .flush => true
  | .clear => true
  | .draw glyph => decide (glyph.toNat ≤ 10)

/-- A channel operand that an assembler accepts: not above 255 (R63). -/
def channelFits (v : Nat) : Bool := decide (v ≤ 255)

/-- The source line is one that an assembler accepts (R63: it refuses an operand outside its field width;
R64: SETRC refuses `row` or `col` outside 0..4). -/
def Asm.wellFormed : Asm → Bool
  | .map row col => decide (row ≤ 7) && decide (col ≤ 7)
  | .setpx idx r g b => decide (idx ≤ 31) && channelFits r && channelFits g && channelFits b
  | .flush => true
  | .clear => true
  | .draw glyph => decide (glyph ≤ 15)
  | .drawName _ => true
  | .setrc row col r g b =>
    decide (row ≤ 4) && decide (col ≤ 4) && channelFits r && channelFits g && channelFits b
  | .fill r g b => channelFits r && channelFits g && channelFits b
  | .off => true

end Sys2Proof
end

