-- ==== Sys2Proof/Machine/Assembler.lean ====
section
/-! DEFINITION. The assembler of R63 to R65: from one source line to command words. It is a tool of the
host's and no part of the block, which sees only the words. -/

namespace Sys2Proof.Machine

open Sys2Proof

/-! ### From source forms to words -/

/-- The glyph id of a name (R65). -/
def glyphNumber : GlyphName → Nat
  | .seta1 => 0
  | .seta2 => 1
  | .seta3 => 2
  | .seta4 => 3
  | .seta5 => 4
  | .seta6 => 5
  | .seta7 => 6
  | .seta8 => 7
  | .animA => 8
  | .animB => 9
  | .animC => 10

/-- The word of `MAP row, col` (R63). -/
def asmMap (row col : Nat) : Word := BitVec.ofNat 32 (0x20000000 + (row <<< 3) + col)

/-- The word of `SETPX idx, r, g, b` (R63). -/
def asmSetpx (idx r g b : Nat) : Word :=
  BitVec.ofNat 32 (0x40000000 + (idx <<< 24) + (r <<< 16) + (g <<< 8) + b)

/-- The word of `FLUSH` (R63). -/
def asmFlush : Word := 0x60000000#32

/-- The word of `CLEAR` (R63). -/
def asmClear : Word := 0x80000000#32

/-- The word of `DRAW glyph` (R63). -/
def asmDraw (glyph : Nat) : Word := BitVec.ofNat 32 (0xA0000000 + glyph)

/-- The index that SETRC's expansion holds (R64): `Index(row, col)`, for a cell of the grid. -/
def asmIndex (row col : Nat) : Nat :=
  if h : row < 5 ∧ col < 5 then (index ⟨row, h.1⟩ ⟨col, h.2⟩).val else 0

/-- The words of a source line that the assembler accepts (R63, R64). -/
def Asm.words : Asm → List Word
  | .map row col => [asmMap row col]
  | .setpx idx r g b => [asmSetpx idx r g b]
  | .flush => [asmFlush]
  | .clear => [asmClear]
  | .draw glyph => [asmDraw glyph]
  | .drawName name => [asmDraw (glyphNumber name)]
  | .setrc row col r g b => [asmSetpx (asmIndex row col) r g b]
  | .fill r g b => (bufferIndices.map fun i => asmSetpx i.val r g b) ++ [asmFlush]
  | .off => [asmClear]

/-- Assemble one source line: its words, or `none` where the assembler refuses it (R63, R64). -/
def assemble (a : Asm) : Option (List Word) := if a.wellFormed then some (Asm.words a) else none

/-! ### From text to source forms (R63). Spaces and tabs separate and surround tokens, and mnemonics and
names are read as R63 to R65 write them, letter for letter: DESIGN CHOICE, log entry 15. -/

/-- A character that only separates. -/
def isBlank (c : Char) : Bool := c == ' ' || c == '\t'

/-- Drop the separating characters at both ends. -/
def trimBlanks (cs : List Char) : List Char :=
  ((cs.dropWhile isBlank).reverse.dropWhile isBlank).reverse

/-- The part of a line before its comment: `;` starts a comment (R63). -/
def beforeComment (cs : List Char) : List Char := cs.takeWhile (fun c => c != ';')

/-- Cut a text at every comma (R63: operands separated by commas). -/
def cutAtCommas : List Char → List (List Char)
  | [] => [[]]
  | c :: cs =>
    match cutAtCommas cs with
    | [] => [[c]]
    | part :: parts => if c == ',' then [] :: part :: parts else (c :: part) :: parts

/-- The value of a decimal digit. -/
def decimalDigit (c : Char) : Option Nat :=
  if '0'.toNat ≤ c.toNat ∧ c.toNat ≤ '9'.toNat then some (c.toNat - '0'.toNat) else none

/-- The value of a hexadecimal digit, either case. -/
def hexDigit (c : Char) : Option Nat :=
  match decimalDigit c with
  | some d => some d
  | none =>
    if 'a'.toNat ≤ c.toNat ∧ c.toNat ≤ 'f'.toNat then some (c.toNat - 'a'.toNat + 10)
    else if 'A'.toNat ≤ c.toNat ∧ c.toNat ≤ 'F'.toNat then some (c.toNat - 'A'.toNat + 10)
    else none

/-- Read digits of a base, the most significant first, onto a value read so far. -/
def readDigits (base : Nat) (digit : Char → Option Nat) : Nat → List Char → Option Nat
  | acc, [] => some acc
  | acc, c :: cs =>
    match digit c with
    | some d => readDigits base digit (base * acc + d) cs
    | none => none

/-- A number operand (R63): decimal, or hexadecimal with `0x`. -/
def readNumber : List Char → Option Nat
  | [] => none
  | ['0', 'x'] => none
  | '0' :: 'x' :: ds => readDigits 16 hexDigit 0 ds
  | ds => readDigits 10 decimalDigit 0 ds

/-- A glyph name operand (R65). -/
def readGlyphName : List Char → Option GlyphName
  | ['s', 'e', 't', 'a', '1'] => some .seta1
  | ['s', 'e', 't', 'a', '2'] => some .seta2
  | ['s', 'e', 't', 'a', '3'] => some .seta3
  | ['s', 'e', 't', 'a', '4'] => some .seta4
  | ['s', 'e', 't', 'a', '5'] => some .seta5
  | ['s', 'e', 't', 'a', '6'] => some .seta6
  | ['s', 'e', 't', 'a', '7'] => some .seta7
  | ['s', 'e', 't', 'a', '8'] => some .seta8
  | ['A', 'N', 'I', 'M', '_', 'A'] => some .animA
  | ['A', 'N', 'I', 'M', '_', 'B'] => some .animB
  | ['A', 'N', 'I', 'M', '_', 'C'] => some .animC
  | _ => none

/-- The operands of a line: none, or the parts between commas. -/
def operandTexts (cs : List Char) : List (List Char) :=
  match trimBlanks cs with
  | [] => []
  | text => (cutAtCommas text).map trimBlanks

/-- All operands as numbers, or `none` if one is no number. -/
def readNumbers : List (List Char) → Option (List Nat)
  | [] => some []
  | t :: ts =>
    match readNumber t, readNumbers ts with
    | some n, some ns => some (n :: ns)
    | _, _ => none

/-- The source forms whose operands are all numbers (R63, R64). -/
def readNumeric (mnemonic : List Char) (operands : List Nat) : Option Asm :=
  match mnemonic, operands with
  | ['M', 'A', 'P'], [row, col] => some (.map row col)
  | ['S', 'E', 'T', 'P', 'X'], [idx, r, g, b] => some (.setpx idx r g b)
  | ['F', 'L', 'U', 'S', 'H'], [] => some .flush
  | ['C', 'L', 'E', 'A', 'R'], [] => some .clear
  | ['D', 'R', 'A', 'W'], [glyph] => some (.draw glyph)
  | ['S', 'E', 'T', 'R', 'C'], [row, col, r, g, b] => some (.setrc row col r g b)
  | ['F', 'I', 'L', 'L'], [r, g, b] => some (.fill r g b)
  | ['O', 'F', 'F'], [] => some .off
  | _, _ => none

/-- One command's text, a mnemonic and its operands (R63, R64). -/
def readCommand (text : List Char) : Option Asm :=
  let mnemonic := text.takeWhile (fun c => !isBlank c)
  let operands := operandTexts (text.dropWhile (fun c => !isBlank c))
  match readNumbers operands with
  | some ns => readNumeric mnemonic ns
  | none =>
    match mnemonic, operands with
    | ['D', 'R', 'A', 'W'], [name] => (readGlyphName name).map .drawName
    | _, _ => none

/-- The words of one line of text: a line with no command gives none, and `none` is a refusal. -/
def assembleLine (line : List Char) : Option (List Word) :=
  match trimBlanks (beforeComment line) with
  | [] => some []
  | text =>
    match readCommand text with
    | some a => assemble a
    | none => none

/-- The words of a text, line by line; one refused line refuses the text. -/
def assembleText : List (List Char) → Option (List Word)
  | [] => some []
  | line :: lines =>
    match assembleLine line, assembleText lines with
    | some ws, some rest => some (ws ++ rest)
    | _, _ => none

end Sys2Proof.Machine
end

