-- ==== Sys2Proof/Safety.lean ====
section
/-! DEFINITION. What the statements speak of: the fault a word causes, read from the table of R120 and the
order of R124 alone; the invariant of the block; and the conditions under which a frame command completes. -/

namespace Sys2Proof.Machine

open Sys2Proof

/-- The channel accepts at least `n` more bytes, sooner or later: R149's fairness of the downstream channel
for `n` bytes (R84). -/
def State.channelTakes (s : State) (n : Nat) : Prop :=
  match s.txAccept with
  | none => True
  | some k => n ≤ k

/-- The range fault of a command (R120): the code when its operands are out of range (R58), else none. -/
def rangeFault : Instr → Option FaultCode
  | .map row col => if 4 < row.toNat ∨ 4 < col.toNat then some .coordRange else none
  | .setpx idx _ _ _ => if 24 < idx.toNat then some .indexRange else none
  | .flush => none
  | .clear => none
  | .draw glyph => if 11 ≤ glyph.toNat then some .glyphRange else none

/-- The fault that a command word causes, if it causes one: illegal opcode, then reserved bits, then the
range check of its command (R120, R124). -/
def wordFault (w : Word) : Option FaultCode :=
  match decode w with
  | .error code => some code
  | .ok i => rangeFault i

/-- The fault code of a command word, written from its bits alone: the checks of R61 in their order, then the
range checks of R74, R80 and R101; 0 where the word causes no fault. -/
def specCode (w : Word) : BitVec 3 :=
  let op := w.extractLsb 31 29
  if op = 0b000#3 ∨ op = 0b110#3 ∨ op = 0b111#3 then 1#3
  else if op = 0b001#3 ∧ w.extractLsb 28 6 ≠ 0#23 then 2#3
  else if op = 0b011#3 ∧ w.extractLsb 28 0 ≠ 0#29 then 2#3
  else if op = 0b100#3 ∧ w.extractLsb 28 0 ≠ 0#29 then 2#3
  else if op = 0b101#3 ∧ w.extractLsb 28 4 ≠ 0#25 then 2#3
  else if op = 0b001#3 ∧ (4 < (w.extractLsb 5 3).toNat ∨ 4 < (w.extractLsb 2 0).toNat) then 3#3
  else if op = 0b010#3 ∧ 24 < (w.extractLsb 28 24).toNat then 4#3
  else if op = 0b101#3 ∧ 11 ≤ (w.extractLsb 3 0).toNat then 5#3
  else 0#3

/-- The bitmap bits that feed the buffer entries, entry 0 first: the last row of R102's table. -/
def laneBits : List Nat :=
  [24, 23, 22, 21, 20, 15, 16, 17, 18, 19, 14, 13, 12, 11, 10, 5, 6, 7, 8, 9, 4, 3, 2, 1, 0]

/-- The bitmap bit that feeds buffer entry `i` (R102's table). -/
def laneBit (i : Fin 25) : Nat := laneBits.getD i.val 0

/-- The `STATUS` fields, `FAULT_CMD` and the faults agree (R25, R27, R120, R121): with `FAULT` = 0 both
`FCODE` and `FAULT_CMD` are 0; with `FAULT` = 1 the block is not busy, and `FCODE` is the code of the fault
that the word in `FAULT_CMD` causes. -/
def State.FaultRecorded (s : State) : Prop :=
  if s.status.fault then
    s.status.busy = false ∧ ∃ code, wordFault s.faultCmd = some code ∧ s.status.fcode = faultNumber code
  else s.status.fcode = 0#3 ∧ s.faultCmd = 0#32

/-- `LAST_IDX` holds an index of the buffer (R26, R71; 0 before the first MAP). -/
def State.LastIdxValid (s : State) : Prop := s.lastIdx.toNat ≤ 24

/-- Every frame of the history has exactly 75 bytes (R31). -/
def State.FramesWhole (s : State) : Prop := ∀ f ∈ s.txh, f.length = 75

/-- `GAP_PENDING` is 0 only once the line has been idle for `T_GAP` (R30, R145). -/
def State.GapKept (s : State) : Prop := s.gapPending = false → Config.tGap ≤ s.gapTimer

/-- A block that is busy between steps is stuck in a frame: what is held is a non-empty end of the frame of the
buffer as it stands, sent with no gap pending; no other block holds bytes (R82, R84). -/
def State.FrameInProgress (s : State) : Prop :=
  if s.status.busy then
    s.gapPending = false ∧ s.tx ≠ [] ∧ ∃ k, s.tx = s.frame.drop k
  else s.tx = []

/-- The invariant of the block. -/
def State.Inv (s : State) : Prop :=
  s.FaultRecorded ∧ s.LastIdxValid ∧ s.FramesWhole ∧ s.GapKept ∧ s.FrameInProgress

/-- What a command can compute or the outside can see, without the timer's own fields: the state with
`GAP_PENDING`, the timer's count and the latency counter set aside (R30). -/
def State.withoutTimer (s : State) : State :=
  { s with gapPending := false, gapTimer := 0, epoch := 0 }

/-- The next state of an outcome, if it has one, seen through `withoutTimer`. -/
def timeless : Host.Outcome State Fault Refusal → Host.Outcome State Fault Refusal
  | .next s => .next s.withoutTimer
  | .fault r => .fault r
  | .refused r => .refused r

/-- The block can take the word `w` now: reset released, not busy, not halted, and `w` offered (R129,
R144), with `rest` behind it. -/
def State.Offers (s : State) (w : Word) (rest : List Word) : Prop :=
  s.rst = false ∧ s.status.fault = false ∧ s.status.busy = false ∧ s.cmdIn = w :: rest

end Sys2Proof.Machine
end

