-- ==== Sys2Proof/Certificates/Slice0/Obligations.lean ====
section
/-! DEFINITION. The statements for the provers. Each docstring names the rule a statement formalises; a
clause that rests on a choice of the model names its log entry. -/

open Sys2Proof Sys2Proof.Machine

/-! ### Encoding and decoding (30_encoding.md) -/

/-- Words written out from R57's patterns and the worked examples decode to the commands they stand for. -/
def Obligations.SpecWordsDecode : Prop :=
  decode 0x20000008#32 = .ok (.map 1#3 0#3) ∧
  decode 0x4CFF0000#32 = .ok (.setpx 12#5 255#8 0#8 0#8) ∧
  decode 0x4F0A141E#32 = .ok (.setpx 15#5 10#8 20#8 30#8) ∧
  decode 0x60000000#32 = .ok .flush ∧
  decode 0x80000000#32 = .ok .clear ∧
  decode 0xA000000A#32 = .ok (.draw 10#4) ∧
  decode 0x2000007F#32 = .error .reservedBits ∧
  decode 0x00000000#32 = .error .illegalOpcode

/-- Every command, with every operand value its fields admit, is what its own word decodes to (R57, R61). -/
def Obligations.DecodeOfEncodedCommand : Prop :=
  ∀ i : Instr, decode (encode i) = .ok i

/-- A word that decodes to a command is the one word of that command: decoding drops no bit (R57, R61). -/
def Obligations.EncodeOfDecodedWord : Prop :=
  ∀ (w : Word) (i : Instr), decode w = .ok i → encode i = w

/-- A word that decodes to a command belongs to that command's row of the opcode table and to no other row;
a word that the decoder rejects belongs to none (R61). -/
def Obligations.DecodedWordsAreTableRows : Prop :=
  ∀ w : Word,
    match decode w with
    | .ok i => tableRows.filter (rowMatches w) = [rowOf i]
    | .error code =>
      tableRows.filter (rowMatches w) = [] ∧ (code = .illegalOpcode ∨ code = .reservedBits)

/-- The block takes an offered word with `op` 000, 110 or 111, whatever its other bits are: it faults with
code 1 and writes nothing else (R60, R121); the timer is set aside. No word with another `op` is rejected as
an illegal opcode. -/
def Obligations.IllegalOpcodeFaults : Prop :=
  (∀ (s : State) (w : Word) (rest : List Word), s.Offers w rest →
    (w.extractLsb 31 29 = 0b000#3 ∨ w.extractLsb 31 29 = 0b110#3 ∨ w.extractLsb 31 29 = 0b111#3) →
    ∃ t, step s = .next t ∧
      t.withoutTimer =
        { s.withoutTimer with cmdIn := rest, status := ⟨false, true, 1#3⟩, faultCmd := w }) ∧
  (∀ w : Word, decode w = .error .illegalOpcode ↔
    (w.extractLsb 31 29 = 0b000#3 ∨ w.extractLsb 31 29 = 0b110#3 ∨ w.extractLsb 31 29 = 0b111#3))

/-- The block takes an offered word with a legal `op` and a reserved bit that is 1 (the reserved fields of
R57 written out): it faults with code 2, and the command has no other effect (R59); the timer is set
aside. -/
def Obligations.ReservedBitFaults : Prop :=
  ∀ (s : State) (w : Word) (rest : List Word), s.Offers w rest →
    ((w.extractLsb 31 29 = 0b001#3 ∧ w.extractLsb 28 6 ≠ 0#23) ∨
     (w.extractLsb 31 29 = 0b011#3 ∧ w.extractLsb 28 0 ≠ 0#29) ∨
     (w.extractLsb 31 29 = 0b100#3 ∧ w.extractLsb 28 0 ≠ 0#29) ∨
     (w.extractLsb 31 29 = 0b101#3 ∧ w.extractLsb 28 4 ≠ 0#25)) →
    ∃ t, step s = .next t ∧
      t.withoutTimer =
        { s.withoutTimer with cmdIn := rest, status := ⟨false, true, 2#3⟩, faultCmd := w }

/-! ### The step -/

/-- A word offered to a ready block that decodes to a command runs as that command (R61, R10), at the state
in which the word has left the port, `STATUS.BUSY` is 1 (R30), and the time up to the execution has passed
(the latency is the free value of log entry 7). -/
def Obligations.StepRunsDecodedCommand : Prop :=
  ∀ (s : State) (w : Word) (rest : List Word) (i : Instr), s.Offers w rest → decode w = .ok i →
    step s = exec i
      { s with
        cmdIn := rest
        status := { s.status with busy := true }
        epoch := s.epoch + 1
        gapTimer := s.gapTimer + (Config.latency s.epoch + 1)
        gapPending :=
          s.gapPending && decide (s.gapTimer + (Config.latency s.epoch + 1) < Config.tGap) }

/-- Commands are taken from the port one at a time and in order (R21): a step that takes a word leaves the
words behind it, and a step of a block that is busy or in reset takes none (R144). That the words offered stand
in `cmdIn` and are still there after a reset is the model's choice (DESIGN CHOICE, log entry 2, unsafe for
claims about words offered across a reset: a host may withdraw them). -/
def Obligations.CommandsTakenInOrder : Prop :=
  (∀ (s t : State) (w : Word) (rest : List Word), s.Offers w rest → step s = .next t → t.cmdIn = rest) ∧
  (∀ s t : State, s.rst = true ∨ s.status.busy = true → step s = .next t → t.cmdIn = s.cmdIn)

/-- With no command offered, a ready block waits with its state kept (R131): `GAP_PENDING`, the gap timer's
count and the counter `epoch` of free latencies alone may move. That every idle step lets at least one cycle
pass, so that the count always grows, is the model's choice (DESIGN CHOICE, log entry 7), and no rule's. -/
def Obligations.IdleBlockKeepsState : Prop :=
  ∀ s : State, s.rst = false → s.status.fault = false → s.status.busy = false → s.cmdIn = [] →
    ∃ t, step s = .next t ∧ t.withoutTimer = s.withoutTimer ∧ t.gapTimer > s.gapTimer

/-! ### The decoder and MAP (40_matrix_addressing.md) -/

/-- The decoder is a bijection from the 25 cells onto the 25 indices; row `row` takes exactly the indices
`20 - 5*row` to `24 - 5*row`, from left to right down on even rows and up on odd rows (R70, R71). -/
def Obligations.IndexIsSerpentineBijection : Prop :=
  Function.Bijective (fun rc : Fin 5 × Fin 5 => index rc.1 rc.2) ∧
  (∀ row col : Fin 5, row.val % 2 = 0 → (index row col).val = 24 - 5 * row.val - col.val) ∧
  (∀ row col : Fin 5, row.val % 2 = 1 → (index row col).val = 20 - 5 * row.val + col.val)

/-- `Cell(i)` is the cell that R73's formula gives, `Index(Cell(i)) = i` for every index, and
`Cell(Index(row, col)) = (row, col)` for every cell (R73). -/
def Obligations.CellInvertsIndex : Prop :=
  (∀ i : Fin 25, (cell i).1.val = (24 - i.val) / 5 ∧
    (cell i).2.val =
      if (24 - i.val) / 5 % 2 = 0 then (24 - i.val) % 5 else 4 - (24 - i.val) % 5) ∧
  (∀ i : Fin 25, index (cell i).1 (cell i).2 = i) ∧
  (∀ row col : Fin 5, cell (index row col) = (row, col))

/-- MAP of a cell of the grid completes: `LAST_IDX` takes the index of R70's formula, `STATUS.BUSY` is 0, and
everything else is unchanged (R74). -/
def Obligations.MapWritesLastIdx : Prop :=
  ∀ (s : State) (row col : BitVec 3), row.toNat ≤ 4 → col.toNat ≤ 4 →
    exec (.map row col) s = .next { s with
      lastIdx := BitVec.ofNat 5
        (if row.toNat % 2 = 0 then 24 - (5 * row.toNat + col.toNat)
         else 24 - (5 * row.toNat + (4 - col.toNat)))
      status := { s.status with busy := false } }

/-- MAP of a coordinate above 4 takes fault 3 with its own word, and writes nothing else (R74, R121). -/
def Obligations.MapOutOfRangeFaults : Prop :=
  ∀ (s : State) (row col : BitVec 3), 4 < row.toNat ∨ 4 < col.toNat →
    exec (.map row col) s = .next { s with
      status := ⟨false, true, 3#3⟩
      faultCmd := 0b001#3 ++ 0#23 ++ row ++ col }

/-! ### SETPX, FLUSH and CLEAR (41_pixel_buffer.md) -/

/-- SETPX of an index 0..24 completes: that entry takes all three channels, every other entry and everything
else is unchanged, and `STATUS.BUSY` is 0; nothing is sent (R80). -/
def Obligations.SetpxWritesOneEntry : Prop :=
  ∀ (s : State) (idx : BitVec 5) (r g b : Byte) (i : Fin 25), idx.toNat = i.val →
    ∃ t, exec (.setpx idx r g b) s = .next t ∧ pixelAt t.pb i = ⟨r, g, b⟩ ∧
      (∀ j : Fin 25, j ≠ i → pixelAt t.pb j = pixelAt s.pb j) ∧
      t = { s with pb := t.pb, status := { s.status with busy := false } }

/-- An index 25..31 or a glyph id 11..15 addresses nothing, and no address wraps: SETPX with such an index
takes fault 4, and DRAW with such an id fault 5, with the command's own word and nothing else written
(R41, R121). -/
def Obligations.OutOfRangeAddressFaults : Prop :=
  (∀ (s : State) (idx : BitVec 5) (r g b : Byte), 24 < idx.toNat →
    exec (.setpx idx r g b) s = .next { s with
      status := ⟨false, true, 4#3⟩
      faultCmd := 0b010#3 ++ idx ++ r ++ g ++ b }) ∧
  (∀ (s : State) (glyph : BitVec 4), 10 < glyph.toNat →
    exec (.draw glyph) s = .next { s with
      status := ⟨false, true, 5#3⟩
      faultCmd := 0b101#3 ++ 0#25 ++ glyph })

/-- A frame has 75 bytes, and byte `3*i + k` is channel `c_k` of entry `i`, unchanged, where `c_0`, `c_1`,
`c_2` are the three channels in some order (R82, R85). -/
def Obligations.FrameByteLayout : Prop :=
  ∀ (order : WireOrder) (pb : Vector Pixel 25),
    (frameOf order pb).length = 75 ∧
    (∀ (i : Fin 25) (k : Fin 3),
      (frameOf order pb)[3 * i.val + k.val]? = some (channelOf (pixelAt pb i) (wireChannel order k))) ∧
    (∀ c : Channel, ∃ k : Fin 3, wireChannel order k = c)

/-- The triple at pixel position `i` of a frame is what cell `Cell(i)` shows (R75); in a frame of a buffer that
triple holds the three bytes of entry `i`, so a grid cell shows the entry that the decoder gives for it (R82).
The wiring is a reading of the spec's, and the light is outside (log entry 16). -/
def Obligations.FrameShowsCellAtItsIndex : Prop :=
  (∀ (frame : Frame) (i : Fin 25),
    shownAt frame (cell i).1 (cell i).2 = (frame.drop (3 * i.val)).take 3) ∧
  (∀ (order : WireOrder) (pb : Vector Pixel 25) (i : Fin 25),
    shownAt (frameOf order pb) (cell i).1 (cell i).2 = pixelBytes order (pixelAt pb i)) ∧
  (∀ (order : WireOrder) (pb : Vector Pixel 25) (row col : Fin 5),
    shownAt (frameOf order pb) row col = pixelBytes order (pixelAt pb (index row col)))

/-- FLUSH completes when the channel accepts the 75 bytes: the frame of the buffer is appended to the
history, `GAP_PENDING` is 1 with the timer restarted, `STATUS.BUSY` is 0, and the buffer and every other
register are unchanged (R81, R82, R84). That the wait for a pending gap ends is DEDUCED (log entry 21, unsafe
for a claim that a frame command finishes): R149 makes it, like the channel's acceptance, a fairness assumption
on the environment and no rule. The timer's count, the bytes held and the channel's bound are the model's fields
(log entries 7, 12 and 4). -/
def Obligations.FlushSendsBuffer : Prop :=
  ∀ s : State, s.channelTakes 75 →
    exec .flush s = .next { s with
      txh := s.txh ++ [frameOf Config.wireOrder s.pb]
      tx := []
      txAccept := s.txAccept.map (fun n => n - 75)
      gapPending := true
      gapTimer := 0
      status := { s.status with busy := false } }

/-- Two FLUSH commands that both complete send the same frame twice (R46, R81). -/
def Obligations.RepeatedFlushRepeatsFrame : Prop :=
  ∀ s t u : State, exec .flush s = .next t → exec .flush t = .next u →
    t.status.busy = false → u.status.busy = false →
    u.txh = s.txh ++ [frameOf Config.wireOrder s.pb, frameOf Config.wireOrder s.pb]

/-- CLEAR completes when the channel accepts the 75 bytes: every entry is (0,0,0), one frame of 75 zero bytes
is sent whatever the wire order is, and every register is unchanged but for `STATUS.BUSY` = 0 (R83). That the
wait for a pending gap ends is DEDUCED (log entry 21, unsafe for a claim that a frame command finishes): R149
makes it a fairness assumption and no rule. The timer's count, the bytes held and the channel's bound are the
model's fields (log entries 7, 12 and 4). -/
def Obligations.ClearBlanksAndSends : Prop :=
  ∀ s : State, s.channelTakes 75 →
    ∃ t, exec .clear s = .next t ∧ (∀ i : Fin 25, pixelAt t.pb i = ⟨0, 0, 0⟩) ∧
      t = { s with
        pb := t.pb
        txh := s.txh ++ [List.replicate 75 0#8]
        tx := []
        txAccept := s.txAccept.map (fun n => n - 75)
        gapPending := true
        gapTimer := 0
        status := { s.status with busy := false } }

/-! ### DRAW (42_glyph_renderer.md) -/

/-- DRAW of a glyph id 0..10 completes when the channel accepts the 75 bytes: the entry that the decoder gives
for each cell takes the cell's colour, `ON_COLOR` where bit `5*row + col` of the bitmap is 1 and `OFF_COLOR`
where it is 0, the frame sent is that of the new buffer, and every register is unchanged but for
`STATUS.BUSY` = 0 (R100, R101). That the wait for a pending gap ends is DEDUCED (log entry 21, unsafe for a
claim that a frame command finishes): R149 makes it a fairness assumption and no rule. The timer's count, the
bytes held and the channel's bound are the model's fields (log entries 7, 12 and 4). -/
def Obligations.DrawRendersGlyph : Prop :=
  ∀ (s : State) (glyph : BitVec 4) (g : Fin 11), glyph.toNat = g.val → s.channelTakes 75 →
    ∃ t, exec (.draw glyph) s = .next t ∧
      (∀ row col : Fin 5, pixelAt t.pb (index row col) =
        if (Config.glyphRom g).getLsbD (5 * row.val + col.val) then ⟨0, 0, 255⟩ else ⟨0, 0, 0⟩) ∧
      t = { s with
        pb := t.pb
        txh := s.txh ++ [frameOf Config.wireOrder t.pb]
        tx := []
        txAccept := s.txAccept.map (fun n => n - 75)
        gapPending := true
        gapTimer := 0
        status := { s.status with busy := false } }

/-- After a DRAW that has completed, every entry `i` is the colour of cell `Cell(i)` of the glyph, whatever the
buffer held; in lane form it is the multiplexer on the bitmap bit of R102's table, which is bit
`5*row + col` of the cell; and the frame sent is that of the buffer (R102). -/
def Obligations.DrawIsLanePermutation : Prop :=
  ∀ (s t : State) (glyph : BitVec 4) (g : Fin 11), glyph.toNat = g.val →
    exec (.draw glyph) s = .next t → t.status.busy = false →
      (∀ i : Fin 25, pixelAt t.pb i = glyphPixel (Config.glyphRom g) (cell i).1 (cell i).2) ∧
      (∀ i : Fin 25, pixelAt t.pb i =
        if (Config.glyphRom g).getLsbD (laneBit i) then Config.onColor else Config.offColor) ∧
      (∀ i : Fin 25, laneBit i = 5 * (cell i).1.val + (cell i).2.val) ∧
      t.txh = s.txh ++ [frameOf Config.wireOrder t.pb]

/-- Every byte of a frame that DRAW sends is 0x00 or 0xFF, and it is 0xFF exactly in the blue place of a
pixel whose cell is on (R103). -/
def Obligations.DrawFrameIsBlueOrDark : Prop :=
  ∀ (s t : State) (glyph : BitVec 4) (g : Fin 11), glyph.toNat = g.val →
    exec (.draw glyph) s = .next t → t.status.busy = false →
    ∃ f, t.txh = s.txh ++ [f] ∧ f.length = 75 ∧
      ∀ (i : Fin 25) (k : Fin 3), f[3 * i.val + k.val]? = some
        (if wireChannel Config.wireOrder k = .b ∧ (Config.glyphRom g).getLsbD (laneBit i) = true
         then 0xFF#8 else 0x00#8)

/-- Nothing of an earlier buffer survives a DRAW: two blocks that draw the same glyph hold the same buffer
afterwards, whether or not the frame has been accepted (R101, R102). -/
def Obligations.DrawForgetsEarlierBuffer : Prop :=
  ∀ (s s' t t' : State) (glyph : BitVec 4), glyph.toNat ≤ 10 →
    exec (.draw glyph) s = .next t → exec (.draw glyph) s' = .next t' → t.pb = t'.pb

/-! ### The transmit port and the gap (41_pixel_buffer.md R84, 70_reset_and_hazards.md R145) -/

/-- A FLUSH, CLEAR or DRAW whose channel accepts only `n < 75` more bytes does not complete and does not
fault: `STATUS.BUSY` is 1, the bytes from `n` on are held, the gap has been waited out, the buffer is as the
command wrote it, and the history and every register are unchanged (R84). That such a command answers a next
state, the stuck state, and that the stuck state then has no next step (U10) is log entry 5 (DESIGN CHOICE);
that its buffer is already written is log entry 13 (DEDUCED); that the gap wait ends is log entry 21 (DEDUCED,
R149); and the timer's count, the bytes held and the channel's bound are the model's fields (log entries 7, 12
and 4). -/
def Obligations.FrameCommandWaitsForChannel : Prop :=
  ∀ (s : State) (n : Nat), s.txAccept = some n → n < 75 →
    (∀ i : Instr, i = .flush ∨ i = .clear ∨ (∃ glyph, i = .draw glyph ∧ glyph.toNat ≤ 10) →
      ∃ t, exec i s = .next t ∧
        t = { s with
          pb := t.pb
          tx := (frameOf Config.wireOrder t.pb).drop n
          txAccept := some 0
          gapPending := false
          gapTimer := max s.gapTimer Config.tGap
          status := { s.status with busy := true } } ∧
        (i = .flush → t.pb = s.pb) ∧
        (i = .clear → ∀ j : Fin 25, pixelAt t.pb j = ⟨0, 0, 0⟩) ∧
        (∀ (glyph : BitVec 4) (g : Fin 11), i = .draw glyph → glyph.toNat = g.val →
          ∀ j : Fin 25, pixelAt t.pb j = glyphPixel (Config.glyphRom g) (cell j).1 (cell j).2))

/-- Every command is one atomic step (R10): the step that takes a word is the whole of its command. Where the
channel accepts a frame's 75 bytes, the block is not busy after it, whatever the word was. Where the block is
busy after it, the word was a FLUSH, CLEAR or DRAW whose channel never accepts the frame (R84), nothing has
faulted, and no later step goes on with it: the block is stuck (U10). That the stuck state is a next state whose
own step has none is log entry 5 (DESIGN CHOICE); the channel's bound is log entry 4; and that the gap wait ends
is log entry 21 (DEDUCED, R149). -/
def Obligations.EachCommandIsOneStep : Prop :=
  ∀ (s : State) (w : Word) (rest : List Word), s.Offers w rest →
    ∃ t, step s = .next t ∧ t.cmdIn = rest ∧
      (s.channelTakes 75 → t.status.busy = false) ∧
      (t.status.busy = true →
        (w.extractLsb 31 29 = 0b011#3 ∨ w.extractLsb 31 29 = 0b100#3 ∨ w.extractLsb 31 29 = 0b101#3) ∧
        t.status.fault = false ∧ step t = .fault .stuck)

/-- A stuck block, whose frame command never completes, has no next step without reset (R84, U10), and this is
no fault of the block. That the model answers so for a block that is busy between steps is log entry 5
(DESIGN CHOICE). -/
def Obligations.StuckBlockHasNoNextStep : Prop :=
  ∀ s : State, s.rst = false → s.status.fault = false → s.status.busy = true → step s = .fault .stuck

/-- The history only grows, by at most one frame a step, and a frame appended is the frame of the buffer
(R31, R82); only reset empties it (R140). -/
def Obligations.HistoryGrowsByOneFrame : Prop :=
  ∀ s t : State, s.rst = false → step s = .next t →
    t.txh = s.txh ∨ t.txh = s.txh ++ [frameOf Config.wireOrder t.pb]

/-- A MAP or SETPX word, and a word with any other `op` than FLUSH, CLEAR or DRAW, has no effect outside the
block: no byte is offered and no frame is sent (R46). -/
def Obligations.OnlyFrameCommandsSend : Prop :=
  ∀ (s t : State) (w : Word) (rest : List Word), s.Offers w rest →
    w.extractLsb 31 29 ≠ 0b011#3 → w.extractLsb 31 29 ≠ 0b100#3 → w.extractLsb 31 29 ≠ 0b101#3 →
    step s = .next t → t.txh = s.txh ∧ t.tx = s.tx ∧ t.txAccept = s.txAccept

/-- `GAP_PENDING` never clears before the timer has counted `T_GAP`; a step that appends a frame leaves it 1
with the timer restarted, and so does reset; and nothing else sets it: without reset, in a step that leaves the
history as it was, `GAP_PENDING` = 0 stays 0 (R30, R145). The timer's count is the model's (log entry 7). -/
def Obligations.GapClearsOnlyAfterTGap : Prop :=
  ∀ s t : State, step s = .next t →
    (s.gapPending = true → t.gapPending = false → Config.tGap ≤ t.gapTimer) ∧
    (t.txh ≠ s.txh → t.gapPending = true ∧ t.gapTimer = 0) ∧
    (s.rst = true → t.gapPending = true ∧ t.gapTimer = 0) ∧
    (s.rst = false → t.txh = s.txh → s.gapPending = false → t.gapPending = false)

/-- `GAP_PENDING` and the timer change no value a command computes: two states that differ only there (and in
the count of free latencies) step to states that differ only there (R30). -/
def Obligations.TimerChangesNoValue : Prop :=
  ∀ s s' : State, s.withoutTimer = s'.withoutTimer → timeless (step s) = timeless (step s')

/-! ### Faults and reset (60_exceptions.md, 70_reset_and_hazards.md) -/

/-- Every offered word takes exactly the fault of the first check that applies, its code written from the
word's bits alone, with the whole word recorded and nothing else written (the timer is set aside); a word to
which no check applies leaves the fault registers as they were (R120, R121, R124). That such a word has a next
state also where it is a frame command that the channel never accepts, the stuck state, is log entry 5
(DESIGN CHOICE). -/
def Obligations.FirstCheckDecidesFault : Prop :=
  ∀ (s : State) (w : Word) (rest : List Word), s.Offers w rest →
    (specCode w ≠ 0#3 →
      ∃ t, step s = .next t ∧
        t.withoutTimer =
          { s.withoutTimer with cmdIn := rest, status := ⟨false, true, specCode w⟩, faultCmd := w }) ∧
    (specCode w = 0#3 →
      ∃ t, step s = .next t ∧ t.status.fault = false ∧ t.status.fcode = s.status.fcode ∧
        t.faultCmd = s.faultCmd)

/-- Faults are precise: a step in which a command faults writes no buffer entry and no `LAST_IDX` and sends
no byte; a command whose checks have passed runs, to its writes and its frame, with no fault, whatever the
channel does; and a block that is busy with a frame cannot fault any more (R122). That no byte is sent is read
off the history, the bytes held and what the channel still accepts. -/
def Obligations.FaultsArePrecise : Prop :=
  (∀ s t : State, s.status.fault = false → step s = .next t → t.status.fault = true →
    t.pb = s.pb ∧ t.lastIdx = s.lastIdx ∧ t.txh = s.txh ∧ t.tx = s.tx ∧ t.txAccept = s.txAccept) ∧
  (∀ (s t : State) (i : Instr), i.inRange = true → exec i s = .next t →
    t.status.fault = s.status.fault) ∧
  (∀ s t : State, s.status.fault = false → s.status.busy = true → step s = .next t →
    t.status.fault = false)

/-- A halted block takes no command: with reset released there is no next state (R123; that the model
answers with the fault `halted` is log entry 6). -/
def Obligations.HaltedBlockTakesNothing : Prop :=
  ∀ s : State, s.status.fault = true → s.rst = false → step s = .fault .halted

/-- Reset works in every state: every piece of the block's state takes the value R140 gives, the frame in
progress is aborted without being appended, and the command port is ready only once `rst` is released. That
the restarted gap timer is the count 0, and that the counter `epoch` of free latencies stays, is log entry 7
(DESIGN CHOICE); that the input ports stay, log entries 2 and 4; that `rst` is used up, log entry 3. -/
def Obligations.ResetWorksInEveryState : Prop :=
  ∀ s : State, s.rst = true →
    ∃ t, step s = .next t ∧ (∀ i : Fin 25, pixelAt t.pb i = ⟨0, 0, 0⟩) ∧
      t.status = ⟨false, false, 0#3⟩ ∧ t.lastIdx = 0#5 ∧ t.faultCmd = 0#32 ∧ t.gapPending = true ∧
      t.gapTimer = 0 ∧ t.tx = [] ∧ t.txh = [] ∧ s.cmdReady = false ∧ t.cmdReady = true ∧
      t.cmdIn = s.cmdIn ∧ t.txAccept = s.txAccept ∧ t.epoch = s.epoch

/-- What reset leaves (R140, R141): all entries (0,0,0), every register 0, `GAP_PENDING` 1, no frame sent or
in progress, and the command port ready. -/
def Obligations.ResetStateValues : Prop :=
  (∀ i : Fin 25, pixelAt State.reset.pb i = ⟨0, 0, 0⟩) ∧
  (∀ ra : BitVec 2, State.reset.readReg ra = 0#32) ∧
  State.reset.gapPending = true ∧ State.reset.txh = [] ∧ State.reset.txValid = false ∧
  State.reset.cmdReady = true

/-- The register read port: `STATUS` with BUSY in bit 0, FAULT in bit 1, FCODE in bits 4:2 and zeros above;
`LAST_IDX` in bits 4:0 with zeros above; `FAULT_CMD` whole (R25, R26, R27, R29). -/
def Obligations.RegisterReadLayout : Prop :=
  ∀ s : State,
    (s.readReg 0#2).toNat =
      s.status.busy.toNat + 2 * s.status.fault.toNat + 4 * s.status.fcode.toNat ∧
    (s.readReg 1#2).toNat = s.lastIdx.toNat ∧
    s.readReg 2#2 = s.faultCmd

/-- Register address 3 always reads zero (R28). -/
def Obligations.ReservedRegisterReadsZero : Prop :=
  ∀ s : State, s.readReg 3#2 = 0x00000000#32

/-- Every step keeps the invariant: the fault registers agree with the recorded word, `LAST_IDX` is an
index, every frame of the history has 75 bytes, `GAP_PENDING` is 0 only after `T_GAP`, and the block is busy
between steps only with an unsent end of the current buffer's frame. -/
def Obligations.StepKeepsInvariant : Prop :=
  ∀ s t : State, s.Inv → Sys2Proof.Machine.step s = .next t → t.Inv

/-- The machine right after reset has the invariant. -/
def Obligations.ResetHasInvariant : Prop := Sys2Proof.Machine.State.reset.Inv

/-! ### The assembler (30_encoding.md R63, R64, R65) -/

/-- The assembler turns each command form whose operands fit their fields into the one word of that command,
and refuses an operand that does not fit (R63). -/
def Obligations.AssemblerMakesCommandWords : Prop :=
  (∀ row col : Nat, assemble (.map row col) =
    if row ≤ 7 ∧ col ≤ 7 then some [encode (.map (BitVec.ofNat 3 row) (BitVec.ofNat 3 col))] else none) ∧
  (∀ idx r g b : Nat, assemble (.setpx idx r g b) =
    if idx ≤ 31 ∧ r ≤ 255 ∧ g ≤ 255 ∧ b ≤ 255 then
      some [encode (.setpx (BitVec.ofNat 5 idx) (BitVec.ofNat 8 r) (BitVec.ofNat 8 g) (BitVec.ofNat 8 b))]
    else none) ∧
  assemble .flush = some [encode .flush] ∧
  assemble .clear = some [encode .clear] ∧
  (∀ glyph : Nat, assemble (.draw glyph) =
    if glyph ≤ 15 then some [encode (.draw (BitVec.ofNat 4 glyph))] else none)

/-- SETRC assembles to SETPX at the index the decoder gives, and only for cells of the grid; FILL to the 25
SETPX words in ascending index and then FLUSH, and only for channels of 0..255 (R63); OFF to CLEAR; and each
glyph name to the DRAW of its id in R65's table (R64). -/
def Obligations.AssemblerExpandsPseudoCommands : Prop :=
  (∀ (row col : Fin 5) (r g b : Nat), assemble (.setrc row.val col.val r g b) =
    assemble (.setpx (index row col).val r g b)) ∧
  (∀ row col r g b : Nat, 4 < row ∨ 4 < col → assemble (.setrc row col r g b) = none) ∧
  (∀ r g b : Byte, assemble (.fill r.toNat g.toNat b.toNat) =
    some ((List.range 25).map (fun i => encode (.setpx (BitVec.ofNat 5 i) r g b)) ++ [encode .flush])) ∧
  (∀ r g b : Nat, 255 < r ∨ 255 < g ∨ 255 < b → assemble (.fill r g b) = none) ∧
  assemble .off = assemble .clear ∧
  assemble (.drawName .seta1) = some [encode (.draw 0#4)] ∧
  assemble (.drawName .seta2) = some [encode (.draw 1#4)] ∧
  assemble (.drawName .seta3) = some [encode (.draw 2#4)] ∧
  assemble (.drawName .seta4) = some [encode (.draw 3#4)] ∧
  assemble (.drawName .seta5) = some [encode (.draw 4#4)] ∧
  assemble (.drawName .seta6) = some [encode (.draw 5#4)] ∧
  assemble (.drawName .seta7) = some [encode (.draw 6#4)] ∧
  assemble (.drawName .seta8) = some [encode (.draw 7#4)] ∧
  assemble (.drawName .animA) = some [encode (.draw 8#4)] ∧
  assemble (.drawName .animB) = some [encode (.draw 9#4)] ∧
  assemble (.drawName .animC) = some [encode (.draw 10#4)]
end

