-- ==== Sys2Proof/Laws/State.lean ====
section
/-! SUPPORT. What each update of the state does to each field: one lemma per field per update. -/

namespace Sys2Proof.Machine

open Sys2Proof

/-! ### The fields of `STATUS` -/

@[simp] theorem Status.withBusy_busy (st : Status) (b : Bool) : (st.withBusy b).busy = b := rfl
@[simp] theorem Status.withBusy_fault (st : Status) (b : Bool) : (st.withBusy b).fault = st.fault := rfl
@[simp] theorem Status.withBusy_fcode (st : Status) (b : Bool) : (st.withBusy b).fcode = st.fcode := rfl
@[simp] theorem Status.withBusy_withBusy (st : Status) (a b : Bool) : (st.withBusy a).withBusy b = st.withBusy b := rfl
@[simp] theorem Status.faulted_busy (c : FaultCode) : (Status.faulted c).busy = false := rfl
@[simp] theorem Status.faulted_fault (c : FaultCode) : (Status.faulted c).fault = true := rfl
@[simp] theorem Status.faulted_fcode (c : FaultCode) : (Status.faulted c).fcode = faultNumber c := rfl
@[simp] theorem Status.cleared_busy : Status.cleared.busy = false := rfl
@[simp] theorem Status.cleared_fault : Status.cleared.fault = false := rfl
@[simp] theorem Status.cleared_fcode : Status.cleared.fcode = 0#3 := rfl

/-! ### `complete` -/

@[simp] theorem State.complete_pb (s : State) :
    s.complete.pb = s.pb := rfl
@[simp] theorem State.complete_status (s : State) :
    s.complete.status = s.status.withBusy false := rfl
@[simp] theorem State.complete_lastIdx (s : State) :
    s.complete.lastIdx = s.lastIdx := rfl
@[simp] theorem State.complete_faultCmd (s : State) :
    s.complete.faultCmd = s.faultCmd := rfl
@[simp] theorem State.complete_gapPending (s : State) :
    s.complete.gapPending = s.gapPending := rfl
@[simp] theorem State.complete_gapTimer (s : State) :
    s.complete.gapTimer = s.gapTimer := rfl
@[simp] theorem State.complete_tx (s : State) :
    s.complete.tx = s.tx := rfl
@[simp] theorem State.complete_txh (s : State) :
    s.complete.txh = s.txh := rfl
@[simp] theorem State.complete_cmdIn (s : State) :
    s.complete.cmdIn = s.cmdIn := rfl
@[simp] theorem State.complete_rst (s : State) :
    s.complete.rst = s.rst := rfl
@[simp] theorem State.complete_txAccept (s : State) :
    s.complete.txAccept = s.txAccept := rfl
@[simp] theorem State.complete_epoch (s : State) :
    s.complete.epoch = s.epoch := rfl

/-! ### `setPixel` -/

@[simp] theorem State.setPixel_pb (s : State) (i : Fin 25) (p : Pixel) :
    (s.setPixel i p).pb = pixelSet s.pb i p := rfl
@[simp] theorem State.setPixel_status (s : State) (i : Fin 25) (p : Pixel) :
    (s.setPixel i p).status = s.status := rfl
@[simp] theorem State.setPixel_lastIdx (s : State) (i : Fin 25) (p : Pixel) :
    (s.setPixel i p).lastIdx = s.lastIdx := rfl
@[simp] theorem State.setPixel_faultCmd (s : State) (i : Fin 25) (p : Pixel) :
    (s.setPixel i p).faultCmd = s.faultCmd := rfl
@[simp] theorem State.setPixel_gapPending (s : State) (i : Fin 25) (p : Pixel) :
    (s.setPixel i p).gapPending = s.gapPending := rfl
@[simp] theorem State.setPixel_gapTimer (s : State) (i : Fin 25) (p : Pixel) :
    (s.setPixel i p).gapTimer = s.gapTimer := rfl
@[simp] theorem State.setPixel_tx (s : State) (i : Fin 25) (p : Pixel) :
    (s.setPixel i p).tx = s.tx := rfl
@[simp] theorem State.setPixel_txh (s : State) (i : Fin 25) (p : Pixel) :
    (s.setPixel i p).txh = s.txh := rfl
@[simp] theorem State.setPixel_cmdIn (s : State) (i : Fin 25) (p : Pixel) :
    (s.setPixel i p).cmdIn = s.cmdIn := rfl
@[simp] theorem State.setPixel_rst (s : State) (i : Fin 25) (p : Pixel) :
    (s.setPixel i p).rst = s.rst := rfl
@[simp] theorem State.setPixel_txAccept (s : State) (i : Fin 25) (p : Pixel) :
    (s.setPixel i p).txAccept = s.txAccept := rfl
@[simp] theorem State.setPixel_epoch (s : State) (i : Fin 25) (p : Pixel) :
    (s.setPixel i p).epoch = s.epoch := rfl

/-! ### `setLastIdx` -/

@[simp] theorem State.setLastIdx_pb (s : State) (i : Fin 25) :
    (s.setLastIdx i).pb = s.pb := rfl
@[simp] theorem State.setLastIdx_status (s : State) (i : Fin 25) :
    (s.setLastIdx i).status = s.status := rfl
@[simp] theorem State.setLastIdx_lastIdx (s : State) (i : Fin 25) :
    (s.setLastIdx i).lastIdx = BitVec.ofNat 5 i.val := rfl
@[simp] theorem State.setLastIdx_faultCmd (s : State) (i : Fin 25) :
    (s.setLastIdx i).faultCmd = s.faultCmd := rfl
@[simp] theorem State.setLastIdx_gapPending (s : State) (i : Fin 25) :
    (s.setLastIdx i).gapPending = s.gapPending := rfl
@[simp] theorem State.setLastIdx_gapTimer (s : State) (i : Fin 25) :
    (s.setLastIdx i).gapTimer = s.gapTimer := rfl
@[simp] theorem State.setLastIdx_tx (s : State) (i : Fin 25) :
    (s.setLastIdx i).tx = s.tx := rfl
@[simp] theorem State.setLastIdx_txh (s : State) (i : Fin 25) :
    (s.setLastIdx i).txh = s.txh := rfl
@[simp] theorem State.setLastIdx_cmdIn (s : State) (i : Fin 25) :
    (s.setLastIdx i).cmdIn = s.cmdIn := rfl
@[simp] theorem State.setLastIdx_rst (s : State) (i : Fin 25) :
    (s.setLastIdx i).rst = s.rst := rfl
@[simp] theorem State.setLastIdx_txAccept (s : State) (i : Fin 25) :
    (s.setLastIdx i).txAccept = s.txAccept := rfl
@[simp] theorem State.setLastIdx_epoch (s : State) (i : Fin 25) :
    (s.setLastIdx i).epoch = s.epoch := rfl

/-! ### `clearPixels` -/

@[simp] theorem State.clearPixels_pb (s : State) :
    s.clearPixels.pb = clearedBuffer s.pb := by simp only [State.clearPixels]
@[simp] theorem State.clearPixels_status (s : State) :
    s.clearPixels.status = s.status := by simp only [State.clearPixels]
@[simp] theorem State.clearPixels_lastIdx (s : State) :
    s.clearPixels.lastIdx = s.lastIdx := by simp only [State.clearPixels]
@[simp] theorem State.clearPixels_faultCmd (s : State) :
    s.clearPixels.faultCmd = s.faultCmd := by simp only [State.clearPixels]
@[simp] theorem State.clearPixels_gapPending (s : State) :
    s.clearPixels.gapPending = s.gapPending := by simp only [State.clearPixels]
@[simp] theorem State.clearPixels_gapTimer (s : State) :
    s.clearPixels.gapTimer = s.gapTimer := by simp only [State.clearPixels]
@[simp] theorem State.clearPixels_tx (s : State) :
    s.clearPixels.tx = s.tx := by simp only [State.clearPixels]
@[simp] theorem State.clearPixels_txh (s : State) :
    s.clearPixels.txh = s.txh := by simp only [State.clearPixels]
@[simp] theorem State.clearPixels_cmdIn (s : State) :
    s.clearPixels.cmdIn = s.cmdIn := by simp only [State.clearPixels]
@[simp] theorem State.clearPixels_rst (s : State) :
    s.clearPixels.rst = s.rst := by simp only [State.clearPixels]
@[simp] theorem State.clearPixels_txAccept (s : State) :
    s.clearPixels.txAccept = s.txAccept := by simp only [State.clearPixels]
@[simp] theorem State.clearPixels_epoch (s : State) :
    s.clearPixels.epoch = s.epoch := by simp only [State.clearPixels]

/-! ### `drawPixels` -/

@[simp] theorem State.drawPixels_pb (s : State) (bits : Bitmap) :
    (s.drawPixels bits).pb = drawnBuffer bits s.pb := by simp only [State.drawPixels]
@[simp] theorem State.drawPixels_status (s : State) (bits : Bitmap) :
    (s.drawPixels bits).status = s.status := by simp only [State.drawPixels]
@[simp] theorem State.drawPixels_lastIdx (s : State) (bits : Bitmap) :
    (s.drawPixels bits).lastIdx = s.lastIdx := by simp only [State.drawPixels]
@[simp] theorem State.drawPixels_faultCmd (s : State) (bits : Bitmap) :
    (s.drawPixels bits).faultCmd = s.faultCmd := by simp only [State.drawPixels]
@[simp] theorem State.drawPixels_gapPending (s : State) (bits : Bitmap) :
    (s.drawPixels bits).gapPending = s.gapPending := by simp only [State.drawPixels]
@[simp] theorem State.drawPixels_gapTimer (s : State) (bits : Bitmap) :
    (s.drawPixels bits).gapTimer = s.gapTimer := by simp only [State.drawPixels]
@[simp] theorem State.drawPixels_tx (s : State) (bits : Bitmap) :
    (s.drawPixels bits).tx = s.tx := by simp only [State.drawPixels]
@[simp] theorem State.drawPixels_txh (s : State) (bits : Bitmap) :
    (s.drawPixels bits).txh = s.txh := by simp only [State.drawPixels]
@[simp] theorem State.drawPixels_cmdIn (s : State) (bits : Bitmap) :
    (s.drawPixels bits).cmdIn = s.cmdIn := by simp only [State.drawPixels]
@[simp] theorem State.drawPixels_rst (s : State) (bits : Bitmap) :
    (s.drawPixels bits).rst = s.rst := by simp only [State.drawPixels]
@[simp] theorem State.drawPixels_txAccept (s : State) (bits : Bitmap) :
    (s.drawPixels bits).txAccept = s.txAccept := by simp only [State.drawPixels]
@[simp] theorem State.drawPixels_epoch (s : State) (bits : Bitmap) :
    (s.drawPixels bits).epoch = s.epoch := by simp only [State.drawPixels]

/-! ### `passTime` -/

@[simp] theorem State.passTime_pb (s : State) :
    s.passTime.pb = s.pb := rfl
@[simp] theorem State.passTime_status (s : State) :
    s.passTime.status = s.status := rfl
@[simp] theorem State.passTime_lastIdx (s : State) :
    s.passTime.lastIdx = s.lastIdx := rfl
@[simp] theorem State.passTime_faultCmd (s : State) :
    s.passTime.faultCmd = s.faultCmd := rfl
@[simp] theorem State.passTime_gapPending (s : State) :
    s.passTime.gapPending = (s.gapPending && decide (s.gapTimer + (Config.latency s.epoch + 1) < Config.tGap)) := rfl
@[simp] theorem State.passTime_gapTimer (s : State) :
    s.passTime.gapTimer = s.gapTimer + (Config.latency s.epoch + 1) := rfl
@[simp] theorem State.passTime_tx (s : State) :
    s.passTime.tx = s.tx := rfl
@[simp] theorem State.passTime_txh (s : State) :
    s.passTime.txh = s.txh := rfl
@[simp] theorem State.passTime_cmdIn (s : State) :
    s.passTime.cmdIn = s.cmdIn := rfl
@[simp] theorem State.passTime_rst (s : State) :
    s.passTime.rst = s.rst := rfl
@[simp] theorem State.passTime_txAccept (s : State) :
    s.passTime.txAccept = s.txAccept := rfl
@[simp] theorem State.passTime_epoch (s : State) :
    s.passTime.epoch = s.epoch + 1 := rfl

/-! ### `awaitGap` -/

@[simp] theorem State.awaitGap_pb (s : State) :
    s.awaitGap.pb = s.pb := rfl
@[simp] theorem State.awaitGap_status (s : State) :
    s.awaitGap.status = s.status := rfl
@[simp] theorem State.awaitGap_lastIdx (s : State) :
    s.awaitGap.lastIdx = s.lastIdx := rfl
@[simp] theorem State.awaitGap_faultCmd (s : State) :
    s.awaitGap.faultCmd = s.faultCmd := rfl
@[simp] theorem State.awaitGap_gapPending (s : State) :
    s.awaitGap.gapPending = false := rfl
@[simp] theorem State.awaitGap_gapTimer (s : State) :
    s.awaitGap.gapTimer = max s.gapTimer Config.tGap := rfl
@[simp] theorem State.awaitGap_tx (s : State) :
    s.awaitGap.tx = s.tx := rfl
@[simp] theorem State.awaitGap_txh (s : State) :
    s.awaitGap.txh = s.txh := rfl
@[simp] theorem State.awaitGap_cmdIn (s : State) :
    s.awaitGap.cmdIn = s.cmdIn := rfl
@[simp] theorem State.awaitGap_rst (s : State) :
    s.awaitGap.rst = s.rst := rfl
@[simp] theorem State.awaitGap_txAccept (s : State) :
    s.awaitGap.txAccept = s.txAccept := rfl
@[simp] theorem State.awaitGap_epoch (s : State) :
    s.awaitGap.epoch = s.epoch := rfl

/-! ### `startFrame` -/

@[simp] theorem State.startFrame_pb (s : State) :
    s.startFrame.pb = s.pb := rfl
@[simp] theorem State.startFrame_status (s : State) :
    s.startFrame.status = s.status := rfl
@[simp] theorem State.startFrame_lastIdx (s : State) :
    s.startFrame.lastIdx = s.lastIdx := rfl
@[simp] theorem State.startFrame_faultCmd (s : State) :
    s.startFrame.faultCmd = s.faultCmd := rfl
@[simp] theorem State.startFrame_gapPending (s : State) :
    s.startFrame.gapPending = s.gapPending := rfl
@[simp] theorem State.startFrame_gapTimer (s : State) :
    s.startFrame.gapTimer = s.gapTimer := rfl
@[simp] theorem State.startFrame_tx (s : State) :
    s.startFrame.tx = s.frame := rfl
@[simp] theorem State.startFrame_txh (s : State) :
    s.startFrame.txh = s.txh := rfl
@[simp] theorem State.startFrame_cmdIn (s : State) :
    s.startFrame.cmdIn = s.cmdIn := rfl
@[simp] theorem State.startFrame_rst (s : State) :
    s.startFrame.rst = s.rst := rfl
@[simp] theorem State.startFrame_txAccept (s : State) :
    s.startFrame.txAccept = s.txAccept := rfl
@[simp] theorem State.startFrame_epoch (s : State) :
    s.startFrame.epoch = s.epoch := rfl

/-! ### `finishFrame` -/

@[simp] theorem State.finishFrame_pb (s : State) :
    s.finishFrame.pb = s.pb := rfl
@[simp] theorem State.finishFrame_status (s : State) :
    s.finishFrame.status = s.status.withBusy false := rfl
@[simp] theorem State.finishFrame_lastIdx (s : State) :
    s.finishFrame.lastIdx = s.lastIdx := rfl
@[simp] theorem State.finishFrame_faultCmd (s : State) :
    s.finishFrame.faultCmd = s.faultCmd := rfl
@[simp] theorem State.finishFrame_gapPending (s : State) :
    s.finishFrame.gapPending = true := rfl
@[simp] theorem State.finishFrame_gapTimer (s : State) :
    s.finishFrame.gapTimer = 0 := rfl
@[simp] theorem State.finishFrame_tx (s : State) :
    s.finishFrame.tx = [] := rfl
@[simp] theorem State.finishFrame_txh (s : State) :
    s.finishFrame.txh = s.txh ++ [s.frame] := rfl
@[simp] theorem State.finishFrame_cmdIn (s : State) :
    s.finishFrame.cmdIn = s.cmdIn := rfl
@[simp] theorem State.finishFrame_rst (s : State) :
    s.finishFrame.rst = s.rst := rfl
@[simp] theorem State.finishFrame_txAccept (s : State) :
    s.finishFrame.txAccept = s.txAccept := rfl
@[simp] theorem State.finishFrame_epoch (s : State) :
    s.finishFrame.epoch = s.epoch := rfl

/-! ### `raise` -/

@[simp] theorem State.raise_pb (s : State) (c : FaultCode) (w : Word) :
    (s.raise c w).pb = s.pb := rfl
@[simp] theorem State.raise_status (s : State) (c : FaultCode) (w : Word) :
    (s.raise c w).status = Status.faulted c := rfl
@[simp] theorem State.raise_lastIdx (s : State) (c : FaultCode) (w : Word) :
    (s.raise c w).lastIdx = s.lastIdx := rfl
@[simp] theorem State.raise_faultCmd (s : State) (c : FaultCode) (w : Word) :
    (s.raise c w).faultCmd = w := rfl
@[simp] theorem State.raise_gapPending (s : State) (c : FaultCode) (w : Word) :
    (s.raise c w).gapPending = s.gapPending := rfl
@[simp] theorem State.raise_gapTimer (s : State) (c : FaultCode) (w : Word) :
    (s.raise c w).gapTimer = s.gapTimer := rfl
@[simp] theorem State.raise_tx (s : State) (c : FaultCode) (w : Word) :
    (s.raise c w).tx = s.tx := rfl
@[simp] theorem State.raise_txh (s : State) (c : FaultCode) (w : Word) :
    (s.raise c w).txh = s.txh := rfl
@[simp] theorem State.raise_cmdIn (s : State) (c : FaultCode) (w : Word) :
    (s.raise c w).cmdIn = s.cmdIn := rfl
@[simp] theorem State.raise_rst (s : State) (c : FaultCode) (w : Word) :
    (s.raise c w).rst = s.rst := rfl
@[simp] theorem State.raise_txAccept (s : State) (c : FaultCode) (w : Word) :
    (s.raise c w).txAccept = s.txAccept := rfl
@[simp] theorem State.raise_epoch (s : State) (c : FaultCode) (w : Word) :
    (s.raise c w).epoch = s.epoch := rfl

/-! ### `resetBlock` -/

@[simp] theorem State.resetBlock_pb (s : State) :
    s.resetBlock.pb = blankBuffer := rfl
@[simp] theorem State.resetBlock_status (s : State) :
    s.resetBlock.status = Status.cleared := rfl
@[simp] theorem State.resetBlock_lastIdx (s : State) :
    s.resetBlock.lastIdx = 0#5 := rfl
@[simp] theorem State.resetBlock_faultCmd (s : State) :
    s.resetBlock.faultCmd = 0#32 := rfl
@[simp] theorem State.resetBlock_gapPending (s : State) :
    s.resetBlock.gapPending = true := rfl
@[simp] theorem State.resetBlock_gapTimer (s : State) :
    s.resetBlock.gapTimer = 0 := rfl
@[simp] theorem State.resetBlock_tx (s : State) :
    s.resetBlock.tx = [] := rfl
@[simp] theorem State.resetBlock_txh (s : State) :
    s.resetBlock.txh = [] := rfl
@[simp] theorem State.resetBlock_cmdIn (s : State) :
    s.resetBlock.cmdIn = s.cmdIn := rfl
@[simp] theorem State.resetBlock_rst (s : State) :
    s.resetBlock.rst = false := rfl
@[simp] theorem State.resetBlock_txAccept (s : State) :
    s.resetBlock.txAccept = s.txAccept := rfl
@[simp] theorem State.resetBlock_epoch (s : State) :
    s.resetBlock.epoch = s.epoch := rfl

/-! ### `accept` -/

@[simp] theorem State.accept_pb (s : State) (rest : List Word) :
    (s.accept rest).pb = s.pb := rfl
@[simp] theorem State.accept_status (s : State) (rest : List Word) :
    (s.accept rest).status = s.status.withBusy true := rfl
@[simp] theorem State.accept_lastIdx (s : State) (rest : List Word) :
    (s.accept rest).lastIdx = s.lastIdx := rfl
@[simp] theorem State.accept_faultCmd (s : State) (rest : List Word) :
    (s.accept rest).faultCmd = s.faultCmd := rfl
@[simp] theorem State.accept_gapPending (s : State) (rest : List Word) :
    (s.accept rest).gapPending = (s.gapPending && decide (s.gapTimer + (Config.latency s.epoch + 1) < Config.tGap)) := rfl
@[simp] theorem State.accept_gapTimer (s : State) (rest : List Word) :
    (s.accept rest).gapTimer = s.gapTimer + (Config.latency s.epoch + 1) := rfl
@[simp] theorem State.accept_tx (s : State) (rest : List Word) :
    (s.accept rest).tx = s.tx := rfl
@[simp] theorem State.accept_txh (s : State) (rest : List Word) :
    (s.accept rest).txh = s.txh := rfl
@[simp] theorem State.accept_cmdIn (s : State) (rest : List Word) :
    (s.accept rest).cmdIn = rest := rfl
@[simp] theorem State.accept_rst (s : State) (rest : List Word) :
    (s.accept rest).rst = s.rst := rfl
@[simp] theorem State.accept_txAccept (s : State) (rest : List Word) :
    (s.accept rest).txAccept = s.txAccept := rfl
@[simp] theorem State.accept_epoch (s : State) (rest : List Word) :
    (s.accept rest).epoch = s.epoch + 1 := rfl

/-! ### `withoutTimer` -/

@[simp] theorem State.withoutTimer_pb (s : State) :
    s.withoutTimer.pb = s.pb := rfl
@[simp] theorem State.withoutTimer_status (s : State) :
    s.withoutTimer.status = s.status := rfl
@[simp] theorem State.withoutTimer_lastIdx (s : State) :
    s.withoutTimer.lastIdx = s.lastIdx := rfl
@[simp] theorem State.withoutTimer_faultCmd (s : State) :
    s.withoutTimer.faultCmd = s.faultCmd := rfl
@[simp] theorem State.withoutTimer_gapPending (s : State) :
    s.withoutTimer.gapPending = false := rfl
@[simp] theorem State.withoutTimer_gapTimer (s : State) :
    s.withoutTimer.gapTimer = 0 := rfl
@[simp] theorem State.withoutTimer_tx (s : State) :
    s.withoutTimer.tx = s.tx := rfl
@[simp] theorem State.withoutTimer_txh (s : State) :
    s.withoutTimer.txh = s.txh := rfl
@[simp] theorem State.withoutTimer_cmdIn (s : State) :
    s.withoutTimer.cmdIn = s.cmdIn := rfl
@[simp] theorem State.withoutTimer_rst (s : State) :
    s.withoutTimer.rst = s.rst := rfl
@[simp] theorem State.withoutTimer_txAccept (s : State) :
    s.withoutTimer.txAccept = s.txAccept := rfl
@[simp] theorem State.withoutTimer_epoch (s : State) :
    s.withoutTimer.epoch = 0 := rfl

end Sys2Proof.Machine
end

