-- ==== Sys2Proof/Laws/Ops.lean ====
section
/-! SUPPORT. One lemma for each shared operation that says what it can do: the operand checks, the frame and
its bytes, the loops over the buffer, the transmission, and the frame primitive. -/

namespace Sys2Proof.Machine

open Sys2Proof

/-! ### Operand checks -/

theorem coordinate_eq_some (row col : BitVec 3) (hr : row.toNat < 5) (hc : col.toNat < 5) :
    coordinate row col = some (⟨row.toNat, hr⟩, ⟨col.toNat, hc⟩) := by
  simp [coordinate, hr, hc]

theorem coordinate_eq_none (row col : BitVec 3) (h : 4 < row.toNat ∨ 4 < col.toNat) :
    coordinate row col = none := by
  have : ¬(row.toNat < 5 ∧ col.toNat < 5) := by omega
  simp only [coordinate, this, dite_false]

theorem bufferIndex_eq_some (idx : BitVec 5) (h : idx.toNat < 25) :
    bufferIndex idx = some ⟨idx.toNat, h⟩ := by
  simp [bufferIndex, h]

theorem bufferIndex_eq_none (idx : BitVec 5) (h : 24 < idx.toNat) : bufferIndex idx = none := by
  have : ¬idx.toNat < 25 := by omega
  simp only [bufferIndex, this, dite_false]

theorem glyphId_eq_some (glyph : BitVec 4) (h : glyph.toNat < 11) :
    glyphId glyph = some ⟨glyph.toNat, h⟩ := by
  simp [glyphId, h]

theorem glyphId_eq_none (glyph : BitVec 4) (h : 10 < glyph.toNat) : glyphId glyph = none := by
  have : ¬glyph.toNat < 11 := by omega
  simp only [glyphId, this, dite_false]

/-! ### Frames -/

@[simp] theorem pixelBytes_length (order : WireOrder) (p : Pixel) : (pixelBytes order p).length = 3 := rfl

/-- Byte `k` of a pixel's three is its channel `c_k`. -/
theorem pixelBytes_getElem? (order : WireOrder) (p : Pixel) (k : Fin 3) :
    (pixelBytes order p)[k.val]? = some (channelOf p (wireChannel order k)) := by
  match k with
  | 0 => rfl
  | 1 => rfl
  | 2 => rfl

/-- A list built from pieces of three holds piece `i` at positions `3*i` to `3*i + 2`. -/
theorem flatMap_three_getElem? {α β : Type} (f : α → List β) (hf : ∀ a, (f a).length = 3) :
    ∀ (l : List α) (i k : Nat), k < 3 → (l.flatMap f)[3 * i + k]? = (l[i]?).bind fun a => (f a)[k]?
  | [], i, k, _ => by simp
  | a :: l, 0, k, hk => by
    rw [List.flatMap_cons, List.getElem?_append_left (by rw [hf]; omega)]
    simp
  | a :: l, i + 1, k, hk => by
    rw [List.flatMap_cons, List.getElem?_append_right (by rw [hf]; omega), hf,
      show 3 * (i + 1) + k - 3 = 3 * i + k by omega, flatMap_three_getElem? f hf l i k hk]
    simp

/-- A frame has 75 bytes (R82). -/
@[simp] theorem frameOf_length (order : WireOrder) (pb : Vector Pixel 25) :
    (frameOf order pb).length = 75 := by
  simp [frameOf, bufferIndices, List.length_flatMap]

/-- Byte `3*i + k` of a frame is channel `c_k` of entry `i` (R82). -/
theorem frameOf_getElem? (order : WireOrder) (pb : Vector Pixel 25) (i : Fin 25) (k : Fin 3) :
    (frameOf order pb)[3 * i.val + k.val]? = some (channelOf (pixelAt pb i) (wireChannel order k)) := by
  rw [frameOf, flatMap_three_getElem? _ (fun _ => rfl) _ _ _ k.isLt]
  have hi : bufferIndices[i.val]? = some i := by simp [bufferIndices]
  rw [hi, Option.bind_some, pixelBytes_getElem?]

@[simp] theorem State.frame_length (s : State) : s.frame.length = 75 := frameOf_length _ _

/-! ### Reading and writing the buffer -/

/-- Reading the entry just written. -/
@[simp] theorem pixelAt_pixelSet_self (pb : Vector Pixel 25) (i : Fin 25) (p : Pixel) :
    pixelAt (pixelSet pb i p) i = p := by
  simp [pixelAt, pixelSet]

/-- A write leaves every other entry alone. -/
theorem pixelAt_pixelSet_of_ne (pb : Vector Pixel 25) (i j : Fin 25) (p : Pixel) (h : i ≠ j) :
    pixelAt (pixelSet pb i p) j = pixelAt pb j :=
  Vector.getElem_set_ne i.isLt j.isLt (fun e => h (Fin.ext e))

/-- Two buffers with the same entries are the same. -/
theorem buffer_ext (pb pb' : Vector Pixel 25) (h : ∀ i, pixelAt pb i = pixelAt pb' i) : pb = pb' :=
  Vector.ext fun i hi => h ⟨i, hi⟩

@[simp] theorem pixelAt_blankBuffer (i : Fin 25) : pixelAt blankBuffer i = Config.offColor := by
  simp [pixelAt, blankBuffer]

/-! ### What a frame shows -/

/-- The position whose LED is wired at cell `Cell(i)` is `i` (R75). -/
theorem shownAt_cell (frame : Frame) (i : Fin 25) :
    shownAt frame (cell i).1 (cell i).2 = frameTriple frame i := by
  have hfind : ∀ i : Fin 25, bufferIndices.find? (fun j => cell j == ((cell i).1, (cell i).2)) = some i := by
    decide
  rw [shownAt, hfind i]

/-- The triple at position `i` of a buffer's frame holds the bytes of entry `i` (R82). -/
theorem frameTriple_frameOf (order : WireOrder) (pb : Vector Pixel 25) (i : Fin 25) :
    frameTriple (frameOf order pb) i = pixelBytes order (pixelAt pb i) := by
  apply List.ext_getElem?
  intro k
  by_cases hk : k < 3
  · rw [frameTriple, List.getElem?_take_of_lt hk, List.getElem?_drop]
    exact (frameOf_getElem? order pb i ⟨k, hk⟩).trans (pixelBytes_getElem? order _ ⟨k, hk⟩).symm
  · rw [List.getElem?_eq_none, List.getElem?_eq_none]
    · simp; omega
    · simp [frameTriple]; omega

/-! ### The loops over the buffer -/

/-- A loop of writes in which all writes to entry `i` write `p`: entry `i` ends as `p` if it is written, or
was `p` before. -/
theorem pixelAt_foldl {α : Type} (at' : α → Fin 25) (val : α → Pixel) (i : Fin 25) :
    ∀ (l : List α) (pb : Vector Pixel 25) (p : Pixel),
      (∀ a ∈ l, at' a = i → val a = p) → ((∃ a ∈ l, at' a = i) ∨ pixelAt pb i = p) →
      pixelAt (l.foldl (fun acc a => pixelSet acc (at' a) (val a)) pb) i = p
  | [], pb, p, _, h => by simpa using h
  | a :: l, pb, p, hv, h => by
    rw [List.foldl_cons]
    refine pixelAt_foldl at' val i l _ p (fun b hb => hv b (List.mem_cons_of_mem _ hb)) ?_
    by_cases ha : at' a = i
    · right
      rw [← hv a List.mem_cons_self ha, ← ha, pixelAt_pixelSet_self]
    · rcases h with ⟨b, hb, hbi⟩ | h
      · rcases List.mem_cons.mp hb with rfl | hb
        · exact absurd hbi ha
        · exact .inl ⟨b, hb, hbi⟩
      · exact .inr ((pixelAt_pixelSet_of_ne pb _ _ _ ha).trans h)

/-- After the loop of CLEAR every entry is (0,0,0) (R83). -/
theorem pixelAt_clearedBuffer (pb : Vector Pixel 25) (i : Fin 25) :
    pixelAt (clearedBuffer pb) i = Config.offColor :=
  pixelAt_foldl id (fun _ => Config.offColor) i bufferIndices pb _ (fun _ _ _ => rfl)
    (.inl ⟨i, by simp [bufferIndices], rfl⟩)

/-- After the loop of CLEAR the buffer is blank. -/
theorem clearedBuffer_eq (pb : Vector Pixel 25) : clearedBuffer pb = blankBuffer :=
  buffer_ext _ _ fun i => by rw [pixelAt_clearedBuffer, pixelAt_blankBuffer]

/-- After the loop of DRAW the entry of each cell has the cell's colour, whatever the buffer held (R101). -/
theorem pixelAt_drawnBuffer (bits : Bitmap) (pb : Vector Pixel 25) (row col : Fin 5) :
    pixelAt (drawnBuffer bits pb) (index row col) = glyphPixel bits row col := by
  refine pixelAt_foldl (fun rc : Fin 5 × Fin 5 => index rc.1 rc.2)
    (fun rc => glyphPixel bits rc.1 rc.2) (index row col) cells pb _ ?_ (.inl ⟨(row, col), ?_, rfl⟩)
  · rintro ⟨r, c⟩ _ h
    have inj : ∀ r c row col : Fin 5, index r c = index row col → r = row ∧ c = col := by decide
    obtain ⟨rfl, rfl⟩ := inj r c row col h
    rfl
  · simp [cells]

/-! ### Transmission -/

/-- The channel accepts all the bytes: none is left. -/
theorem transmit_all : ∀ bs : List Byte, (∀ n, transmit bs (some (bs.length + n)) = ([], some n)) ∧
    transmit bs none = ([], none)
  | [] => ⟨fun n => by simp [transmit], rfl⟩
  | b :: bs => by
    obtain ⟨h1, h2⟩ := transmit_all bs
    refine ⟨fun n => ?_, h2⟩
    rw [List.length_cons, show bs.length + 1 + n = (bs.length + n) + 1 by omega]
    exact h1 n

/-- The channel accepts only `n` of the bytes: the others are left, and it accepts no more. -/
theorem transmit_short : ∀ (bs : List Byte) (n : Nat), n < bs.length →
    transmit bs (some n) = (bs.drop n, some 0)
  | [], n, h => by simp at h
  | b :: bs, 0, _ => rfl
  | b :: bs, n + 1, h => by
    rw [List.length_cons] at h
    exact transmit_short bs n (by omega)

/-- The channel accepts all the bytes of the frame in progress: the frame is finished. -/
theorem State.sendBytes_takes (s : State) (h : s.channelTakes s.tx.length) :
    s.sendBytes = { s with txAccept := s.txAccept.map (fun n => n - s.tx.length) }.finishFrame := by
  cases ha : s.txAccept with
  | none => simp [State.sendBytes, ha, (transmit_all s.tx).2]
  | some k =>
    simp only [State.channelTakes, ha] at h
    obtain ⟨n, rfl⟩ := Nat.exists_eq_add_of_le h
    simp [State.sendBytes, ha, (transmit_all s.tx).1]

/-- The channel accepts only `n` bytes of the frame in progress: the rest is held, and BUSY is 1. -/
theorem State.sendBytes_short (s : State) (n : Nat) (ha : s.txAccept = some n) (hn : n < s.tx.length) :
    s.sendBytes = { s with
      tx := s.tx.drop n, txAccept := some 0, status := s.status.withBusy true } := by
  have hd : s.tx.drop n ≠ [] := by simp; omega
  obtain ⟨v, vs, hv⟩ := List.exists_cons_of_ne_nil hd
  simp [State.sendBytes, ha, transmit_short s.tx n hn, hv]

/-- Either the channel accepts `n` bytes, or it stops before. -/
theorem State.channelTakes_or (s : State) (n : Nat) :
    s.channelTakes n ∨ ∃ k, s.txAccept = some k ∧ k < n := by
  cases ha : s.txAccept with
  | none => simp [State.channelTakes, ha]
  | some k => simp only [State.channelTakes, ha]; simp; omega

/-- Sending bytes changes neither the buffer nor a register but `STATUS.BUSY`, nor the inputs but what the
channel still accepts. -/
theorem State.sendBytes_keeps (s : State) :
    s.sendBytes.pb = s.pb ∧ s.sendBytes.lastIdx = s.lastIdx ∧ s.sendBytes.faultCmd = s.faultCmd ∧
      s.sendBytes.status.fault = s.status.fault ∧ s.sendBytes.status.fcode = s.status.fcode ∧
      s.sendBytes.cmdIn = s.cmdIn ∧ s.sendBytes.rst = s.rst ∧ s.sendBytes.epoch = s.epoch := by
  rcases s.channelTakes_or s.tx.length with h | ⟨n, h, hn⟩
  · rw [State.sendBytes_takes s h]; simp
  · rw [State.sendBytes_short s n h hn]; simp

/-- The frame primitive changes neither the buffer nor a register but `STATUS.BUSY`. -/
theorem State.emitFrame_keeps (s : State) :
    s.emitFrame.pb = s.pb ∧ s.emitFrame.lastIdx = s.lastIdx ∧ s.emitFrame.faultCmd = s.faultCmd ∧
      s.emitFrame.status.fault = s.status.fault ∧ s.emitFrame.status.fcode = s.status.fcode ∧
      s.emitFrame.cmdIn = s.cmdIn ∧ s.emitFrame.rst = s.rst ∧ s.emitFrame.epoch = s.epoch := by
  simpa [State.emitFrame] using s.awaitGap.startFrame.sendBytes_keeps

/-- The frame primitive, completed: the frame of the buffer is appended (R82, R84). -/
theorem State.emitFrame_takes (s : State) (h : s.channelTakes 75) :
    s.emitFrame = { s with
      txh := s.txh ++ [s.frame]
      tx := []
      txAccept := s.txAccept.map (fun n => n - 75)
      gapPending := true
      gapTimer := 0
      status := s.status.withBusy false } := by
  have h' : s.awaitGap.startFrame.channelTakes s.awaitGap.startFrame.tx.length := by
    simpa [State.channelTakes] using h
  rw [State.emitFrame, State.sendBytes_takes _ h']
  simp [State.finishFrame, State.startFrame, State.awaitGap, State.frame]

/-- The frame primitive, held up by the channel: BUSY stays 1 and the bytes not accepted are held (R84). -/
theorem State.emitFrame_short (s : State) (n : Nat) (ha : s.txAccept = some n) (hn : n < 75) :
    s.emitFrame = { s with
      tx := s.frame.drop n
      txAccept := some 0
      gapPending := false
      gapTimer := max s.gapTimer Config.tGap
      status := s.status.withBusy true } := by
  rw [State.emitFrame, State.sendBytes_short _ n (by simpa using ha) (by simpa using hn)]
  simp [State.startFrame, State.awaitGap, State.frame]

end Sys2Proof.Machine
end

