-- ==== Sys2Proof/Laws/PerInstr.lean ====
section
/-! SUPPORT. A family of statements about every command, as syntax: its word belongs to its row of the opcode
table (R57, R61). -/

namespace Sys2Proof.Laws

open Sys2Proof

/-- The command's word has the fixed bits of its row of the opcode table. -/
def RowMatch.Statement (i : Instr) : Prop := rowMatches (encode i) (rowOf i) = true

theorem RowMatch.map (row col : BitVec 3) : RowMatch.Statement (.map row col) := by
  revert row col; simp only [RowMatch.Statement]; decide

theorem RowMatch.setpx (idx : BitVec 5) (r g b : Byte) : RowMatch.Statement (.setpx idx r g b) := by
  simp only [RowMatch.Statement, rowMatches, encode, rowOf, beq_iff_eq]
  apply BitVec.eq_of_getLsbD_eq
  intro k hk
  rw [BitVec.getLsbD_and]
  by_cases h : k < 29
  · have hm : ∀ k : Fin 29, (0xE0000000#32).getLsbD k.val = false := by decide
    have hv : ∀ k : Fin 29, (0x40000000#32).getLsbD k.val = false := by decide
    exact (congrArg _ (hm ⟨k, h⟩)).trans ((Bool.and_false _).trans (hv ⟨k, h⟩).symm)
  · have hk' : k = 29 ∨ k = 30 ∨ k = 31 := by omega
    rcases hk' with rfl | rfl | rfl <;> simp only [BitVec.getLsbD_append] <;> rfl

theorem RowMatch.flush : RowMatch.Statement .flush := by
  simp only [RowMatch.Statement]; decide

theorem RowMatch.clear : RowMatch.Statement .clear := by
  simp only [RowMatch.Statement]; decide

theorem RowMatch.draw (glyph : BitVec 4) : RowMatch.Statement (.draw glyph) := by
  revert glyph; simp only [RowMatch.Statement]; decide

end Sys2Proof.Laws
end

