-- ==== Sys2Proof/Laws/Step.lean ====
section
/-! SUPPORT. What a command and a step can do, said once. -/

namespace Sys2Proof.Machine

open Sys2Proof

/-- A command takes no range fault exactly when its operands are in range (R58). -/
theorem rangeFault_eq_none_iff (i : Instr) : rangeFault i = none ↔ i.inRange = true := by
  cases i <;> simp [rangeFault, Instr.inRange]
  omega

/-- Everything a command can do: MAP and SETPX in range complete, the frame commands in range go through the
frame primitive, and an operand out of range takes the fault of R120 with the command's own word. -/
theorem exec_cases (i : Instr) (s : State) :
    (∃ row col : Fin 5, i = .map (BitVec.ofNat 3 row.val) (BitVec.ofNat 3 col.val) ∧
      exec i s = .next (s.setLastIdx (index row col)).complete) ∨
    (∃ (k : Fin 25) (r g b : Byte), i = .setpx (BitVec.ofNat 5 k.val) r g b ∧
      exec i s = .next (s.setPixel k ⟨r, g, b⟩).complete) ∨
    (i = .flush ∧ exec i s = .next s.emitFrame) ∨
    (i = .clear ∧ exec i s = .next s.clearPixels.emitFrame) ∨
    (∃ g : Fin 11, i = .draw (BitVec.ofNat 4 g.val) ∧
      exec i s = .next (s.drawPixels (Config.glyphRom g)).emitFrame) ∨
    (∃ code, rangeFault i = some code ∧ exec i s = .next (s.raise code (encode i))) := by
  cases i with
  | map row col =>
    by_cases h : row.toNat < 5 ∧ col.toNat < 5
    · refine .inl ⟨⟨row.toNat, h.1⟩, ⟨col.toNat, h.2⟩, by simp, ?_⟩
      simp only [exec, execMap, coordinate_eq_some row col h.1 h.2]
    · have h' : 4 < row.toNat ∨ 4 < col.toNat := by omega
      refine .inr (.inr (.inr (.inr (.inr ⟨.coordRange, by simp only [rangeFault, if_pos h'], ?_⟩))))
      simp only [exec, execMap, coordinate_eq_none row col h']
  | setpx idx r g b =>
    by_cases h : idx.toNat < 25
    · refine .inr (.inl ⟨⟨idx.toNat, h⟩, r, g, b, by simp, ?_⟩)
      simp only [exec, execSetpx, bufferIndex_eq_some idx h]
    · have h' : 24 < idx.toNat := by omega
      refine .inr (.inr (.inr (.inr (.inr ⟨.indexRange, by simp only [rangeFault, if_pos h'], ?_⟩))))
      simp only [exec, execSetpx, bufferIndex_eq_none idx h']
  | flush => exact .inr (.inr (.inl ⟨rfl, rfl⟩))
  | clear => exact .inr (.inr (.inr (.inl ⟨rfl, rfl⟩)))
  | draw glyph =>
    by_cases h : glyph.toNat < 11
    · refine .inr (.inr (.inr (.inr (.inl ⟨⟨glyph.toNat, h⟩, by simp, ?_⟩))))
      simp only [exec, execDraw, glyphId_eq_some glyph h]
    · have h' : 10 < glyph.toNat := by omega
      have h11 : 11 ≤ glyph.toNat := by omega
      refine .inr (.inr (.inr (.inr (.inr ⟨.glyphRange, by simp only [rangeFault, if_pos h11], ?_⟩))))
      simp only [exec, execDraw, glyphId_eq_none glyph h']

/-- Everything a step with a next state can be: a reset, an idle wait, or an offered word that is rejected or
runs as its command, in this one step. -/
theorem step_cases (s t : State) (h : step s = .next t) :
    (s.rst = true ∧ t = s.resetBlock) ∨
    (s.rst = false ∧ s.status.fault = false ∧ s.status.busy = false ∧ s.cmdIn = [] ∧ t = s.passTime) ∨
    (∃ w rest code, s.Offers w rest ∧ decode w = .error code ∧ t = (s.accept rest).raise code w) ∨
    (∃ w rest i, s.Offers w rest ∧ decode w = .ok i ∧ exec i (s.accept rest) = .next t) := by
  unfold step at h
  split at h
  · exact .inl ⟨‹_›, by simpa using h.symm⟩
  · split at h
    · cases h
    · split at h
      · cases h
      · split at h
        · exact .inr (.inl ⟨by simp_all, by simp_all, by simp_all, ‹_›, by simpa using h.symm⟩)
        · rename_i w rest hc
          have ho : s.Offers w rest := ⟨by simp_all, by simp_all, by simp_all, hc⟩
          unfold runWord at h
          split at h
          · exact .inr (.inr (.inr ⟨w, rest, _, ho, ‹_›, h⟩))
          · exact .inr (.inr (.inl ⟨w, rest, _, ho, ‹_›, by simpa using h.symm⟩))

/-- A stuck block has no next step. -/
theorem step_of_busy (s : State) (hr : s.rst = false) (hf : s.status.fault = false)
    (hb : s.status.busy = true) : step s = .fault .stuck := by
  simp [step, hr, hf, hb]

/-- A step at an offered word is the run of that word. -/
theorem step_of_offers (s : State) (w : Word) (rest : List Word) (h : s.Offers w rest) :
    step s = runWord w (s.accept rest) := by
  obtain ⟨h1, h2, h3, h4⟩ := h
  simp [step, h1, h2, h3, h4]

end Sys2Proof.Machine
end

