-- ==== Sys2Proof/Tests/Slice0.lean ====
section
/-! SUPPORT. Tests of one step or one operation each, their expected values taken from the vectors of
95_test_vectors.md and the worked examples of the rules; the smoke tests of WellFormed; and, for each
statement with hypotheses, a state and operands that meet them. -/

namespace Sys2Proof.Tests

open Sys2Proof Sys2Proof.Machine

/-- The reset state with one word offered. -/
def ready (w : Word) : State := State.reset.offer w

/-- The next state of an outcome (the reset state where it has none). -/
def seen : Host.Outcome State Machine.Fault Refusal → State
  | .next s => s
  | .fault _ => State.reset
  | .refused _ => State.reset

/-- The outcome has a next state. -/
def goesOn : Host.Outcome State Machine.Fault Refusal → Bool
  | .next _ => true
  | .fault _ => false
  | .refused _ => false

/-- The reset state with a word offered and a channel that accepts `n` bytes. -/
def readyFor (n : Nat) (w : Word) : State := { ready w with txAccept := some n }

/-- A block stuck in a FLUSH whose channel took 10 bytes. -/
def stuckBlock : State := seen (step (readyFor 10 0x60000000#32))

/-- A block halted by an illegal word. -/
def halted : State := seen (step (ready 0xC0000000#32))

/-! ### Well-formedness: an ill-formed term for each check -/

theorem test_inRange_map_row : (Instr.map 5#3 0#3).inRange = false := by decide
theorem test_inRange_map_col : (Instr.map 4#3 5#3).inRange = false := by decide
theorem test_inRange_map_corner : (Instr.map 4#3 4#3).inRange = true := by decide
theorem test_inRange_setpx : (Instr.setpx 25#5 0#8 0#8 0#8).inRange = false := by decide
theorem test_inRange_draw : (Instr.draw 11#4).inRange = false := by decide
theorem test_asm_map_row : (Asm.map 8 0).wellFormed = false := by decide
theorem test_asm_map_col : (Asm.map 0 8).wellFormed = false := by decide
theorem test_asm_setpx_idx : (Asm.setpx 32 0 0 0).wellFormed = false := by decide
theorem test_asm_setpx_channels :
    (Asm.setpx 0 256 0 0).wellFormed = false ∧ (Asm.setpx 0 0 256 0).wellFormed = false ∧
      (Asm.setpx 0 0 0 256).wellFormed = false := by decide
theorem test_asm_draw : (Asm.draw 16).wellFormed = false := by decide
theorem test_asm_setrc_cell :
    (Asm.setrc 5 0 0 0 0).wellFormed = false ∧ (Asm.setrc 0 5 0 0 0).wellFormed = false := by decide
theorem test_asm_setrc_channels :
    (Asm.setrc 0 0 256 0 0).wellFormed = false ∧ (Asm.setrc 0 0 0 256 0).wellFormed = false ∧
      (Asm.setrc 0 0 0 0 256).wellFormed = false := by decide
theorem test_asm_fill :
    (Asm.fill 256 0 0).wellFormed = false ∧ (Asm.fill 0 256 0).wellFormed = false ∧
      (Asm.fill 0 0 256).wellFormed = false := by decide

/-! ### Decoding: words written out bit by bit from R57's patterns -/

theorem test_decode_map : decode 0b00100000000000000000000000001000#32 = .ok (.map 1#3 0#3) := by decide
theorem test_decode_setpx :
    decode 0b01001100111111110000000000000000#32 = .ok (.setpx 12#5 255#8 0#8 0#8) := by decide
theorem test_decode_setpx_fields :
    decode 0b01001111000010100001010000011110#32 = .ok (.setpx 15#5 10#8 20#8 30#8) := by decide
theorem test_decode_flush : decode 0b01100000000000000000000000000000#32 = .ok .flush := by decide
theorem test_decode_clear : decode 0b10000000000000000000000000000000#32 = .ok .clear := by decide
theorem test_decode_draw : decode 0b10100000000000000000000000001010#32 = .ok (.draw 10#4) := by decide
/-- V21, V23, V35, V36, V39, V50. -/
theorem test_decode_reserved :
    ([0x20000040#32, 0x3FFFFFC0#32, 0x60000001#32, 0x7FFFFFFF#32, 0x80000100#32, 0xA0000010#32].all
      fun w => decode w == .error .reservedBits) = true := by decide
/-- V51 to V55. -/
theorem test_decode_illegal :
    ([0x00000000#32, 0x1FFFFFFF#32, 0xC0000000#32, 0xE0000000#32, 0xFFFFFFFF#32].all
      fun w => decode w == .error .illegalOpcode) = true := by decide
theorem test_decodeTableWord : decodeTableWord 32 0x20000024 = some (.map 4#3 4#3) := by decide

/-! ### MAP -/

/-- The table of R72, row by row. -/
theorem test_index_table :
    cells.map (fun rc => (index rc.1 rc.2).val) =
      [24, 23, 22, 21, 20, 15, 16, 17, 18, 19, 14, 13, 12, 11, 10, 5, 6, 7, 8, 9, 4, 3, 2, 1, 0] := by decide
/-- V13 and V57. -/
theorem test_map_1_0 : (seen (step (ready 0x20000008#32))).readReg 1#2 = 15#32 := by decide
/-- V20, V22, V58 and V59: the coordinates fault, but a reserved bit decides first. -/
theorem test_map_faults :
    (seen (step (ready 0x2000003F#32))).readReg 0#2 = 0xE#32 ∧
      (seen (step (ready 0x2000007F#32))).readReg 0#2 = 0xA#32 ∧
      (seen (step (ready 0x2000007F#32))).readReg 2#2 = 0x2000007F#32 := by decide

/-! ### SETPX, FLUSH and CLEAR -/

/-- V24. -/
theorem test_setpx_12 :
    pixelAt (seen (step (ready 0x4CFF0000#32))).pb 12 = ⟨255#8, 0#8, 0#8⟩ ∧
      pixelAt (seen (step (ready 0x4CFF0000#32))).pb 11 = ⟨0#8, 0#8, 0#8⟩ := by decide
/-- V28 and V29. -/
theorem test_setpx_out_of_range :
    (seen (step (ready 0x59000000#32))).readReg 0#2 = 0x12#32 ∧
      (seen (step (ready 0x5FFFFFFF#32))).readReg 2#2 = 0x5FFFFFFF#32 := by decide
/-- V32 and its note: the red byte of entry 12 is at 36 for (r,g,b) and at 37 for (g,r,b). -/
theorem test_frame_bytes :
    (frameOf .rgb (pixelSet blankBuffer 12 ⟨255#8, 0#8, 0#8⟩))[36]? = some 255#8 ∧
      (frameOf .grb (pixelSet blankBuffer 12 ⟨255#8, 0#8, 0#8⟩))[37]? = some 255#8 := by decide
/-- V31: a FLUSH right after reset sends one frame and completes. -/
theorem test_flush_after_reset :
    (seen (step (ready 0x60000000#32))).txh.length = 1 ∧
      (seen (step (ready 0x60000000#32))).status.busy = false := by decide
/-- V38: CLEAR blanks an entry that was white. -/
theorem test_clear_blanks :
    pixelAt (seen (exec .clear (State.reset.setPixel 0 ⟨255#8, 255#8, 255#8⟩))).pb 0 = ⟨0#8, 0#8, 0#8⟩ := by
  decide
/-- V39: on a reserved bit CLEAR does nothing. -/
theorem test_clear_reserved :
    pixelAt (seen (step ((ready 0x80000100#32).setPixel 0 ⟨255#8, 255#8, 255#8⟩))).pb 0 =
      ⟨255#8, 255#8, 255#8⟩ := by decide

/-! ### DRAW, on fixture bitmaps -/

/-- V41: F-diag lights entries 0, 8, 12, 16, 24. -/
theorem test_draw_diag :
    (bufferIndices.filter fun i =>
      pixelAt (drawnBuffer 0x1041041#25 blankBuffer) i == Config.onColor).map Fin.val = [0, 8, 12, 16, 24] := by
  decide
/-- V43: the frame of F-col0 has 0xFF at 14, 17, 44, 47, 74. -/
theorem test_draw_col0_frame :
    ((List.range 75).filter fun k =>
      (frameOf .rgb (drawnBuffer 0x0108421#25 blankBuffer))[k]? == some 255#8) = [14, 17, 44, 47, 74] := by
  decide
/-- V48: glyph 11 takes fault 5. -/
theorem test_draw_11 :
    (seen (step (ready 0xA000000B#32))).readReg 0#2 = 0x16#32 ∧
      (seen (step (ready 0xA000000B#32))).readReg 2#2 = 0xA000000B#32 := by decide
/-- V47: glyph 10 is legal and sends one frame. -/
theorem test_draw_10 : (seen (step (ready 0xA000000A#32))).txh.length = 1 := by decide

/-! ### The machine -/

/-- V56. -/
theorem test_reset_registers :
    State.reset.readReg 0#2 = 0#32 ∧ State.reset.readReg 1#2 = 0#32 ∧ State.reset.readReg 2#2 = 0#32 ∧
      State.reset.readReg 3#2 = 0#32 := by decide
/-- P3: a halted block takes no word. -/
theorem test_halted_stops : goesOn (step (halted.offer 0x60000000#32)) = false := by decide
/-- Reset leaves the halted state (R123, R140). -/
theorem test_reset_after_halt : (seen (step halted.assertReset)).readReg 0#2 = 0#32 := by decide
/-- R84: a FLUSH whose channel stops is busy, and no frame is in the history. -/
theorem test_stuck_is_busy : stuckBlock.readReg 0#2 = 1#32 ∧ stuckBlock.tx.length = 65 ∧ stuckBlock.txh = [] := by
  decide
/-- U10: it has no next step. -/
theorem test_stuck_stops : step stuckBlock = .fault .stuck := rfl
/-- R10: with a channel that accepts exactly a frame, the whole FLUSH is one step. -/
theorem test_flush_is_one_step :
    (seen (step (readyFor 75 0x60000000#32))).txh.length = 1 ∧
      (seen (step (readyFor 75 0x60000000#32))).readReg 0#2 = 0#32 := by decide
/-- R140: reset aborts a frame in progress and does not append it. -/
theorem test_reset_aborts_frame :
    (seen (step stuckBlock.assertReset)).txh = [] ∧ (seen (step stuckBlock.assertReset)).txValid = false := by decide
theorem test_withFetchWord_runs :
    (seen (step (State.reset.withFetchWord 32 0x20000008))).lastIdx = 15#5 := by decide

/-! ### The assembler -/

/-- P2's lines and their words, with a comment, blanks and a hexadecimal operand. -/
theorem test_assemble_text :
    assembleText
      [['M', 'A', 'P', ' ', '1', ',', ' ', '0', ' ', ';', ' ', 'x'],
       ['S', 'E', 'T', 'P', 'X', ' ', '1', '5', ',', '1', '0', ',', '0', 'x', '1', '4', ',', ' ', '3', '0'],
       [' '], ['F', 'L', 'U', 'S', 'H']] =
      some [0x20000008#32, 0x4F0A141E#32, 0x60000000#32] := by decide
/-- P6's first line, and a number that does not fit its field. -/
theorem test_assemble_names :
    assembleLine ['D', 'R', 'A', 'W', ' ', 'A', 'N', 'I', 'M', '_', 'A'] = some [0xA0000008#32] ∧
      assembleLine ['D', 'R', 'A', 'W', ' ', '1', '6'] = none ∧
      assembleLine ['M', 'A', 'P', ' ', '1'] = none := by decide

/-! ### Witnesses: for each statement with hypotheses, operands and states that meet them -/

theorem witness_EncodeOfDecodedWord : decode 0x20000008#32 = .ok (.map 1#3 0#3) := by decide
/-- For every statement that takes an offered word. -/
theorem witness_Offers (w : Word) : (ready w).Offers w [] := ⟨rfl, rfl, rfl, rfl⟩
theorem witness_IllegalOpcodeFaults :
    (ready 0x1FFFFFFF#32).Offers 0x1FFFFFFF#32 [] ∧ (0x1FFFFFFF#32).extractLsb 31 29 = 0b000#3 ∧
    (0xC0000000#32).extractLsb 31 29 = 0b110#3 ∧ (0xFFFFFFFF#32).extractLsb 31 29 = 0b111#3 :=
  ⟨witness_Offers _, by decide⟩
theorem witness_ReservedBitFaults :
    (ready 0x20000040#32).Offers 0x20000040#32 [] ∧
    ((0x20000040#32).extractLsb 31 29 = 0b001#3 ∧ (0x20000040#32).extractLsb 28 6 ≠ 0#23) ∧
    ((0x70000000#32).extractLsb 31 29 = 0b011#3 ∧ (0x70000000#32).extractLsb 28 0 ≠ 0#29) ∧
    ((0x80000001#32).extractLsb 31 29 = 0b100#3 ∧ (0x80000001#32).extractLsb 28 0 ≠ 0#29) ∧
    ((0xA0000010#32).extractLsb 31 29 = 0b101#3 ∧ (0xA0000010#32).extractLsb 28 4 ≠ 0#25) :=
  ⟨witness_Offers _, by decide⟩
theorem witness_StepRunsDecodedCommand :
    (ready 0x80000000#32).Offers 0x80000000#32 [] ∧ decode 0x80000000#32 = .ok .clear :=
  ⟨witness_Offers _, by decide⟩
theorem witness_CommandsTakenInOrder :
    (ready 0x20000008#32).Offers 0x20000008#32 [] ∧ (∃ t, step (ready 0x20000008#32) = .next t) ∧
    stuckBlock.assertReset.status.busy = true ∧ (∃ t, step stuckBlock.assertReset = .next t) ∧
    halted.assertReset.rst = true ∧ (∃ t, step halted.assertReset = .next t) :=
  ⟨witness_Offers _, ⟨_, rfl⟩, by decide, ⟨_, rfl⟩, rfl, ⟨_, rfl⟩⟩
theorem witness_IdleBlockKeepsState :
    State.reset.rst = false ∧ State.reset.status.fault = false ∧ State.reset.status.busy = false ∧
      State.reset.cmdIn = [] := ⟨rfl, rfl, rfl, rfl⟩
theorem witness_MapWritesLastIdx : (4#3).toNat ≤ 4 ∧ (0#3).toNat ≤ 4 := by decide
theorem witness_MapOutOfRangeFaults : 4 < (5#3).toNat ∧ 4 < (7#3).toNat := by decide
theorem witness_SetpxWritesOneEntry : (24#5).toNat = (24 : Fin 25).val ∧ (0#5).toNat = (0 : Fin 25).val := by
  decide
theorem witness_OutOfRangeAddressFaults :
    24 < (25#5).toNat ∧ 24 < (31#5).toNat ∧ 10 < (11#4).toNat ∧ 10 < (15#4).toNat := by decide
/-- For FLUSH, CLEAR and DRAW: a channel with exactly room for the frame, and one without bound. -/
theorem witness_channelTakes : State.reset.channelTakes 75 ∧ (readyFor 75 0#32).channelTakes 75 :=
  ⟨trivial, Nat.le_refl _⟩
theorem witness_RepeatedFlushRepeatsFrame :
    ∃ t u, exec .flush State.reset = .next t ∧ exec .flush t = .next u ∧ t.status.busy = false ∧
      u.status.busy = false := ⟨_, _, rfl, rfl, by decide, by decide⟩
theorem witness_DrawRendersGlyph :
    (10#4).toNat = (10 : Fin 11).val ∧ (0#4).toNat = (0 : Fin 11).val ∧ State.reset.channelTakes 75 :=
  ⟨rfl, rfl, trivial⟩
/-- For DrawIsLanePermutation as well. -/
theorem witness_DrawFrameIsBlueOrDark :
    (10#4).toNat = (10 : Fin 11).val ∧
    ∃ t, exec (.draw 10#4) State.reset = .next t ∧ t.status.busy = false := ⟨rfl, _, rfl, by decide⟩
theorem witness_DrawForgetsEarlierBuffer :
    (10#4).toNat ≤ 10 ∧ ∃ t t', exec (.draw 10#4) State.reset = .next t ∧
      exec (.draw 10#4) (State.reset.setPixel 3 ⟨1#8, 2#8, 3#8⟩) = .next t' := ⟨by decide, _, _, rfl, rfl⟩
theorem witness_FrameCommandWaitsForChannel :
    (readyFor 0 0#32).txAccept = some 0 ∧ (readyFor 74 0#32).txAccept = some 74 ∧ 0 < 75 ∧ 74 < 75 ∧
      (0#4).toNat = (0 : Fin 11).val ∧ (10#4).toNat = (10 : Fin 11).val := by decide
theorem witness_EachCommandIsOneStep :
    (readyFor 75 0x60000000#32).Offers 0x60000000#32 [] ∧ (readyFor 75 0x60000000#32).channelTakes 75 ∧
    (readyFor 74 0xA000000A#32).Offers 0xA000000A#32 [] ∧
    ∃ t, step (readyFor 74 0xA000000A#32) = .next t ∧ t.status.busy = true :=
  ⟨⟨rfl, rfl, rfl, rfl⟩, Nat.le_refl _, ⟨rfl, rfl, rfl, rfl⟩, _, rfl, by decide⟩
theorem witness_StuckBlockHasNoNextStep :
    stuckBlock.rst = false ∧ stuckBlock.status.fault = false ∧ stuckBlock.status.busy = true := by decide
theorem witness_HistoryGrowsByOneFrame :
    (ready 0x60000000#32).rst = false ∧ ∃ t, step (ready 0x60000000#32) = .next t := ⟨rfl, _, rfl⟩
theorem witness_OnlyFrameCommandsSend :
    (ready 0x40FFFFFF#32).Offers 0x40FFFFFF#32 [] ∧ (0x40FFFFFF#32).extractLsb 31 29 = 0b010#3 ∧
      ∃ t, step (ready 0x40FFFFFF#32) = .next t := ⟨witness_Offers _, by decide, _, rfl⟩
/-- A FLUSH held up by the channel has waited out the gap; one that completes restarts it. -/
theorem witness_GapClearsOnlyAfterTGap :
    (∃ t, step (readyFor 0 0x60000000#32) = .next t ∧ (readyFor 0 0x60000000#32).gapPending = true ∧
      t.gapPending = false) ∧
    (∃ t, step (ready 0x60000000#32) = .next t ∧ t.txh.length ≠ (ready 0x60000000#32).txh.length) ∧
    (∃ t, step halted.assertReset = .next t ∧ halted.assertReset.rst = true) ∧
    (∃ t, step { ready 0x20000008#32 with gapPending := false } = .next t ∧
      (ready 0x20000008#32).rst = false ∧ t.txh = (ready 0x20000008#32).txh) :=
  ⟨⟨_, rfl, rfl, rfl⟩, ⟨_, rfl, by decide⟩, ⟨_, rfl, rfl⟩, ⟨_, rfl, rfl, rfl⟩⟩
theorem witness_TimerChangesNoValue :
    (ready 0x60000000#32).withoutTimer =
      ({ ready 0x60000000#32 with gapPending := false, gapTimer := 7 } : State).withoutTimer := rfl
theorem witness_FirstCheckDecidesFault :
    (ready 0x2000003F#32).Offers 0x2000003F#32 [] ∧ specCode 0x2000003F#32 = 3#3 ∧
    specCode 0x20000024#32 = 0#3 ∧ specCode 0x2000007F#32 = 2#3 ∧ specCode 0x59000000#32 = 4#3 ∧
    specCode 0x58000000#32 = 0#3 ∧ specCode 0xA000000B#32 = 5#3 ∧ specCode 0xA000000A#32 = 0#3 ∧
    specCode 0x00000000#32 = 1#3 := ⟨witness_Offers _, by decide⟩
theorem witness_FaultsArePrecise :
    ((ready 0x59000000#32).status.fault = false ∧
      ∃ t, step (ready 0x59000000#32) = .next t ∧ t.status.fault = true) ∧
    ((Instr.draw 10#4).inRange = true ∧ ∃ t, exec (.draw 10#4) (readyFor 74 0#32) = .next t) ∧
    (stuckBlock.assertReset.status.fault = false ∧ stuckBlock.assertReset.status.busy = true ∧
      ∃ t, step stuckBlock.assertReset = .next t) :=
  ⟨⟨rfl, _, rfl, by decide⟩, ⟨by decide, _, rfl⟩, by decide, by decide, _, rfl⟩
theorem witness_HaltedBlockTakesNothing : halted.status.fault = true ∧ halted.rst = false := by decide
theorem witness_ResetWorksInEveryState :
    halted.assertReset.rst = true ∧ stuckBlock.assertReset.rst = true := ⟨rfl, rfl⟩
/-- The invariant is met by a stuck block, which reset takes to a next state, and by the reset state with a word
offered. -/
theorem witness_StepKeepsInvariant :
    (stuckBlock.assertReset.Inv ∧ ∃ t, step stuckBlock.assertReset = .next t) ∧
    ((ready 0x4CFF0000#32).Inv ∧ ∃ t, step (ready 0x4CFF0000#32) = .next t) := by
  refine ⟨⟨⟨by simp [State.FaultRecorded, show stuckBlock.assertReset.status.fault = false by decide,
      show stuckBlock.assertReset.status.fcode = 0#3 by decide,
      show stuckBlock.assertReset.faultCmd = 0#32 by decide], ?_, ?_, ?_, ?_⟩, _, rfl⟩,
    ⟨⟨rfl, rfl⟩, Nat.zero_le _, by simp [State.FramesWhole, ready, State.offer, State.reset], nofun, rfl⟩, _, rfl⟩
  · exact (by decide : stuckBlock.assertReset.lastIdx.toNat ≤ 24)
  · intro f hf
    rw [show stuckBlock.assertReset.txh = [] by decide] at hf
    cases hf
  · exact fun _ => Nat.le_max_right _ _
  · rw [State.FrameInProgress, if_pos (by decide)]
    exact ⟨rfl, by rw [← List.length_pos_iff]; decide, 10, rfl⟩
theorem witness_AssemblerExpandsPseudoCommands :
    4 < 5 ∧ assemble (.setrc 0 5 0 0 0) = none ∧ 255 < 256 ∧ assemble (.fill 0 0 256) = none := by decide

end Sys2Proof.Tests
end

/-! PROOFS. Rule R10 (00_scope.md), for O26: the step that takes a word is the whole of its command. -/

namespace Sys2Proof.Machine

open Sys2Proof

/-! ### The operation of a decoded word -/

/-- The operation code of a command (R56): bits 31:29 of its word. -/
def opcode : Instr → BitVec 3
  | .map _ _ => 0b001#3
  | .setpx _ _ _ _ => 0b010#3
  | .flush => 0b011#3
  | .clear => 0b100#3
  | .draw _ => 0b101#3

/-- The command ends in the frame primitive `EmitFrame` (R81, R83, R101). -/
def sendsFrame (i : Instr) : Prop :=
  opcode i = 0b011#3 ∨ opcode i = 0b100#3 ∨ opcode i = 0b101#3

/-- The checks of `dispatchWord` leave only DRAW's code for its last branch. -/
theorem opcode_dispatchWord (w : Word) (h : opIllegal w = false) : opcode (dispatchWord w) = opField w := by
  have last : ∀ op : BitVec 3, (op == 0b000#3 || op == 0b110#3 || op == 0b111#3) = false →
      op ≠ 0b001#3 → op ≠ 0b010#3 → op ≠ 0b011#3 → op ≠ 0b100#3 → 0b101#3 = op := by decide
  unfold dispatchWord
  split_ifs with hmap hsetpx hflush hclear
  · exact (beq_iff_eq.mp hmap).symm
  · exact (beq_iff_eq.mp hsetpx).symm
  · exact (beq_iff_eq.mp hflush).symm
  · exact (beq_iff_eq.mp hclear).symm
  · rw [beq_iff_eq] at hmap hsetpx hflush hclear
    exact last (opField w) h hmap hsetpx hflush hclear

/-- A word that decodes to a command carries that command's operation code. -/
theorem opcode_of_decode (w : Word) (i : Instr) (h : decode w = .ok i) : opcode i = opField w := by
  unfold decode at h
  split_ifs at h with hop hres
  obtain rfl := Except.ok.inj h
  exact opcode_dispatchWord w (Bool.eq_false_iff.mpr hop)

/-! ### Where a command leaves the block -/

/-- The frame primitive leaves the block busy only when the channel stops before the 75th byte (R84). -/
theorem State.emitFrame_busy (s : State) (hb : s.emitFrame.status.busy = true) : ¬ s.channelTakes 75 := by
  intro h
  rw [State.emitFrame_takes s h] at hb
  exact Bool.false_ne_true hb

/-- A command begun in `s` has run to its end in `t`: the ports are as they were, and where the block is still
busy the command sends a frame that the channel does not take, which is no fault (R10, R84). -/
structure RunsWhole (i : Instr) (s t : State) : Prop where
  cmdIn : t.cmdIn = s.cmdIn
  rst : t.rst = s.rst
  busy : t.status.busy = true →
    sendsFrame i ∧ ¬ s.channelTakes 75 ∧ t.status.fault = s.status.fault

/-- A frame command that has written the buffer, changing nothing else that `RunsWhole` speaks of, and then goes
through the frame primitive. -/
theorem runsWhole_emitFrame (i : Instr) (s : State) (pb : Vector Pixel 25) (hi : sendsFrame i) :
    RunsWhole i s { s with pb := pb }.emitFrame := by
  obtain ⟨-, -, -, hfault, -, hcmd, hrst, -⟩ := State.emitFrame_keeps { s with pb := pb }
  exact ⟨hcmd, hrst, fun hb => ⟨hi, State.emitFrame_busy { s with pb := pb } hb, hfault⟩⟩

/-- Every command answers a next state, and has run whole in it. -/
theorem exec_runsWhole (i : Instr) (s : State) : ∃ t, exec i s = .next t ∧ RunsWhole i s t := by
  rcases exec_cases i s with ⟨row, col, -, ht⟩ | ⟨k, r, g, b, -, ht⟩ | ⟨rfl, ht⟩ | ⟨rfl, ht⟩ |
    ⟨g, rfl, ht⟩ | ⟨code, -, ht⟩
  case inr.inr.inl => exact ⟨_, ht, runsWhole_emitFrame _ s s.pb (.inl rfl)⟩
  case inr.inr.inr.inl => exact ⟨_, ht, runsWhole_emitFrame _ s _ (.inr (.inl rfl))⟩
  case inr.inr.inr.inr.inl => exact ⟨_, ht, runsWhole_emitFrame _ s _ (.inr (.inr rfl))⟩
  -- MAP, SETPX and fault entry clear `STATUS.BUSY`.
  all_goals exact ⟨_, ht, rfl, rfl, nofun⟩

/-! ### The step that takes a word -/

/-- What taking a word leaves behind, whether the word is rejected or runs as its command. -/
theorem runWord_runsWhole (w : Word) (s : State) :
    ∃ t, runWord w s = .next t ∧ t.cmdIn = s.cmdIn ∧ t.rst = s.rst ∧
      (t.status.busy = true → (opField w = 0b011#3 ∨ opField w = 0b100#3 ∨ opField w = 0b101#3) ∧
        ¬ s.channelTakes 75 ∧ t.status.fault = s.status.fault) := by
  unfold runWord
  cases hd : decode w with
  | error code => exact ⟨_, rfl, rfl, rfl, nofun⟩
  | ok i =>
    obtain ⟨t, ht, hrun⟩ := exec_runsWhole i s
    exact ⟨t, ht, hrun.cmdIn, hrun.rst, opcode_of_decode w i hd ▸ hrun.busy⟩

/-- Settles O26: the word runs whole (`runWord_runsWhole`), and a block left busy by it is stuck. -/
theorem eachCommandIsOneStep : Obligations.EachCommandIsOneStep := by
  intro s w rest hoff
  obtain ⟨t, ht, hcmd, hrst, hbusy⟩ := runWord_runsWhole w (s.accept rest)
  have ⟨hrst0, hfault0, _, _⟩ := hoff
  refine ⟨t, (step_of_offers s w rest hoff).trans ht, hcmd, fun htakes => ?_, fun hb => ?_⟩
  · refine Bool.eq_false_iff.mpr fun hb => ?_
    obtain ⟨-, hshort, -⟩ := hbusy hb
    exact hshort htakes
  · obtain ⟨hop, -, hfault⟩ := hbusy hb
    have hnofault : t.status.fault = false := hfault.trans hfault0
    exact ⟨hop, hnofault, step_of_busy t (hrst.trans hrst0) hnofault hb⟩

end Sys2Proof.Machine

/-! PROOFS. The state and its registers (10_state.md), for O8, O28, O30, O31, O37, O38 and O39. -/

namespace Sys2Proof.Machine

open Sys2Proof

/-! ### The register read port (R25 to R29) -/

/-- `STATUS` as a number: BUSY in bit 0, FAULT in bit 1, FCODE above (R25). -/
theorem Status.word_toNat (st : Status) :
    st.word.toNat = st.busy.toNat + 2 * st.fault.toNat + 4 * st.fcode.toNat := by
  have fields : ∀ (busy fault : Bool) (fcode : BitVec 3),
      (0#27 ++ fcode ++ BitVec.ofBool fault ++ BitVec.ofBool busy).toNat =
        busy.toNat + 2 * fault.toNat + 4 * fcode.toNat := by decide
  exact fields st.busy st.fault st.fcode

/-- Settles O37: address by address. -/
theorem registerReadLayout : Obligations.RegisterReadLayout := by
  intro s
  refine ⟨s.status.word_toNat, ?_, rfl⟩
  exact (BitVec.toNat_append 0#27 s.lastIdx).trans (by simp)

/-- Settles O38: the read port's last branch. -/
theorem reservedRegisterReadsZero : Obligations.ReservedRegisterReadsZero := fun _ => rfl

/-! ### The branches of a step that take no word -/

/-- Reset wins in every state (R140). -/
theorem step_of_reset (s : State) (hrst : s.rst = true) : step s = .next s.resetBlock := by
  simp [step, hrst]

/-- A halted block has no next step (R123). -/
theorem step_of_halted (s : State) (hrst : s.rst = false) (hfault : s.status.fault = true) :
    step s = .fault .halted := by
  simp [step, hrst, hfault]

/-- With no word offered, a ready block lets time pass (R131). -/
theorem step_of_idle (s : State) (hrst : s.rst = false) (hfault : s.status.fault = false)
    (hbusy : s.status.busy = false) (hcmd : s.cmdIn = []) : step s = .next s.passTime := by
  simp [step, hrst, hfault, hbusy, hcmd]

/-! ### The timer stands apart (R30) -/

/-- The frame primitive sends, or holds, the same bytes whatever the timer's fields are: it waits until they no
longer matter. -/
theorem State.emitFrame_withoutTimer (s : State) :
    s.withoutTimer.emitFrame.withoutTimer = s.emitFrame.withoutTimer := by
  rcases s.channelTakes_or 75 with htakes | ⟨n, haccept, hn⟩
  · rw [State.emitFrame_takes s htakes, State.emitFrame_takes s.withoutTimer htakes]
    rfl
  · rw [State.emitFrame_short s n haccept hn, State.emitFrame_short s.withoutTimer n haccept hn]
    rfl

/-- No command's outcome depends on the timer's fields, but for those fields themselves. -/
theorem timeless_exec_withoutTimer (i : Instr) (s : State) :
    timeless (exec i s.withoutTimer) = timeless (exec i s) := by
  have emit (u : State) : timeless (.next u.withoutTimer.emitFrame) = timeless (.next u.emitFrame) :=
    congrArg Host.Outcome.next u.emitFrame_withoutTimer
  cases i with
  | map row col =>
    simp only [exec, execMap]
    cases coordinate row col <;> rfl
  | setpx idx r g b =>
    simp only [exec, execSetpx]
    cases bufferIndex idx <;> rfl
  | flush => exact emit s
  | clear => exact emit s.clearPixels
  | draw glyph =>
    simp only [exec, execDraw]
    cases glyphId glyph with
    | none => rfl
    | some g => exact emit (s.drawPixels (Config.glyphRom g))

/-- The run of a word does not depend on the timer's fields either. -/
theorem timeless_runWord_withoutTimer (w : Word) (s : State) :
    timeless (runWord w s.withoutTimer) = timeless (runWord w s) := by
  unfold runWord
  cases decode w with
  | error code => rfl
  | ok i => exact timeless_exec_withoutTimer i s

/-- A step reads none of the timer's fields but to move them. -/
theorem timeless_step_withoutTimer (s : State) : timeless (step s.withoutTimer) = timeless (step s) := by
  cases hrst : s.rst with
  | true =>
    rw [step_of_reset s hrst, step_of_reset s.withoutTimer hrst]
    rfl
  | false =>
  cases hfault : s.status.fault with
  | true => rw [step_of_halted s hrst hfault, step_of_halted s.withoutTimer hrst hfault]
  | false =>
  cases hbusy : s.status.busy with
  | true => rw [step_of_busy s hrst hfault hbusy, step_of_busy s.withoutTimer hrst hfault hbusy]
  | false =>
  cases hcmd : s.cmdIn with
  | nil =>
    rw [step_of_idle s hrst hfault hbusy hcmd, step_of_idle s.withoutTimer hrst hfault hbusy hcmd]
    rfl
  | cons w rest =>
    have hoffers : s.Offers w rest := ⟨hrst, hfault, hbusy, hcmd⟩
    have haccept : (s.withoutTimer.accept rest).withoutTimer = (s.accept rest).withoutTimer := rfl
    rw [step_of_offers s w rest hoffers, step_of_offers s.withoutTimer w rest hoffers,
      ← timeless_runWord_withoutTimer, haccept, timeless_runWord_withoutTimer]

/-- Settles O31: both steps show what the step of the common state without a timer shows. -/
theorem timerChangesNoValue : Obligations.TimerChangesNoValue := by
  intro s s' h
  rw [← timeless_step_withoutTimer s, h, timeless_step_withoutTimer]

/-! ### The word of a command (R57) -/

/-- Appending, as arithmetic. -/
theorem toNat_append_eq_add {m n : Nat} (x : BitVec m) (y : BitVec n) :
    (x ++ y).toNat = x.toNat * 2 ^ n + y.toNat := by
  rw [BitVec.toNat_append, ← Nat.shiftLeft_add_eq_or_of_lt y.isLt, Nat.shiftLeft_eq]

/-- A field of a word, read off the word's number: what stands above the field, the field, what stands below. -/
theorem extractLsb'_eq_of_toNat {m n : Nat} (w : BitVec m) (lo : Nat) (x : BitVec n) (above below : Nat)
    (hbelow : below < 2 ^ lo) (hw : w.toNat = (above * 2 ^ n + x.toNat) * 2 ^ lo + below) :
    w.extractLsb' lo n = x := by
  apply BitVec.eq_of_toNat_eq
  rw [BitVec.extractLsb'_toNat, hw, Nat.shiftRight_eq_div_pow, Nat.add_comm _ below,
    Nat.add_mul_div_right _ _ (Nat.two_pow_pos lo), Nat.div_eq_of_lt hbelow, Nat.zero_add,
    Nat.mul_add_mod', Nat.mod_eq_of_lt x.isLt]

/-- The word of SETPX as a number (R57). -/
theorem encode_setpx_toNat (idx : BitVec 5) (r g b : Byte) : (encode (.setpx idx r g b)).toNat =
    (((2 * 2 ^ 5 + idx.toNat) * 2 ^ 8 + r.toNat) * 2 ^ 8 + g.toNat) * 2 ^ 8 + b.toNat := by
  have append : (0b010#3 ++ idx ++ r ++ g ++ b : BitVec (3 + 5 + 8 + 8 + 8)).toNat =
      (((2 * 2 ^ 5 + idx.toNat) * 2 ^ 8 + r.toNat) * 2 ^ 8 + g.toNat) * 2 ^ 8 + b.toNat := by
    simp only [toNat_append_eq_add, BitVec.toNat_ofNat, Nat.reducePow, Nat.reduceMod]
  exact append

/-- The operation field of a SETPX word (R56). -/
theorem opField_encode_setpx (idx : BitVec 5) (r g b : Byte) :
    opField (encode (.setpx idx r g b)) = 0b010#3 := by
  have htwo : (0b010#3).toNat = 2 := rfl
  exact extractLsb'_eq_of_toNat _ 29 0b010#3 0
    (((idx.toNat * 2 ^ 8 + r.toNat) * 2 ^ 8 + g.toNat) * 2 ^ 8 + b.toNat)
    (by omega) ((encode_setpx_toNat idx r g b).trans (by rw [htwo]; omega))

/-- The decoder's fields of a SETPX word are the operands (R57). -/
theorem dispatchWord_encode_setpx (idx : BitVec 5) (r g b : Byte) :
    dispatchWord (encode (.setpx idx r g b)) = .setpx idx r g b := by
  have hnum := encode_setpx_toNat idx r g b
  have hidx : (encode (.setpx idx r g b)).extractLsb' 24 5 = idx :=
    extractLsb'_eq_of_toNat _ 24 idx 2 ((r.toNat * 2 ^ 8 + g.toNat) * 2 ^ 8 + b.toNat)
      (by omega) (hnum.trans (by omega))
  have hr : (encode (.setpx idx r g b)).extractLsb' 16 8 = r :=
    extractLsb'_eq_of_toNat _ 16 r (2 * 2 ^ 5 + idx.toNat) (g.toNat * 2 ^ 8 + b.toNat)
      (by omega) (hnum.trans (by omega))
  have hg : (encode (.setpx idx r g b)).extractLsb' 8 8 = g :=
    extractLsb'_eq_of_toNat _ 8 g ((2 * 2 ^ 5 + idx.toNat) * 2 ^ 8 + r.toNat) b.toNat b.isLt hnum
  have hb : (encode (.setpx idx r g b)).extractLsb' 0 8 = b :=
    extractLsb'_eq_of_toNat _ 0 b _ 0 Nat.one_pos (hnum.trans (Nat.mul_one _).symm)
  simp [dispatchWord, opField_encode_setpx, BitVec.extractLsb, hidx, hr, hg, hb]

/-- `decode` reads back the fields that `encode` lays out (R57, R61). -/
theorem decode_encode (i : Instr) : decode (encode i) = .ok i := by
  cases i with
  | map row col => revert row col; decide
  | setpx idx r g b =>
    simp [decode, opIllegal, reservedSet, opField_encode_setpx, dispatchWord_encode_setpx]
  | flush => decide
  | clear => decide
  | draw glyph => revert glyph; decide

/-- A command out of range is rebuilt by the encoder into a word that causes its fault (R120). -/
theorem wordFault_encode (i : Instr) : wordFault (encode i) = rangeFault i := by
  simp only [wordFault, decode_encode]

/-! ### The moves of the block -/

/-- The ways one step can change the block: reset; the idle wait; and, for the word it takes, MAP, SETPX, a frame
command whose frame is sent, one whose frame is held from byte `n` on, and a fault. A frame command enters
with the buffer it leaves, so that FLUSH, CLEAR and DRAW are one case. -/
inductive Moves (s : State) : State → Prop where
  | reset (hrst : s.rst = true) : Moves s s.resetBlock
  | wait (hready : s.cmdReady = true) : Moves s s.passTime
  | map (hready : s.cmdReady = true) (rest : List Word) (k : Fin 25) :
      Moves s ((s.accept rest).setLastIdx k).complete
  | setpx (hready : s.cmdReady = true) (rest : List Word) (k : Fin 25) (p : Pixel) :
      Moves s ((s.accept rest).setPixel k p).complete
  | sent (hready : s.cmdReady = true) (rest : List Word) (pb : Vector Pixel 25) (accept : Option Nat) :
      Moves s { s.accept rest with
        pb := pb
        txh := s.txh ++ [frameOf Config.wireOrder pb]
        tx := []
        txAccept := accept
        gapPending := true
        gapTimer := 0
        status := s.status.withBusy false }
  | held (hready : s.cmdReady = true) (rest : List Word) (pb : Vector Pixel 25) (n : Nat) (hn : n < 75) :
      Moves s { s.accept rest with
        pb := pb
        tx := (frameOf Config.wireOrder pb).drop n
        txAccept := some 0
        gapPending := false
        gapTimer := max (s.accept rest).gapTimer Config.tGap
        status := s.status.withBusy true }
  | fault (hready : s.cmdReady = true) (rest : List Word) (code : FaultCode) (w : Word)
      (hcode : wordFault w = some code) : Moves s ((s.accept rest).raise code w)

/-- What it takes to be ready (R129). -/
theorem State.cmdReady_iff (s : State) :
    s.cmdReady = true ↔ s.rst = false ∧ s.status.fault = false ∧ s.status.busy = false := by
  simp only [State.cmdReady, Bool.and_eq_true, Bool.not_eq_true']
  tauto

/-- The frame primitive, at the state that took the word and wrote the buffer, sends the frame or holds it. -/
theorem moves_emitFrame (s : State) (hready : s.cmdReady = true) (rest : List Word) (pb : Vector Pixel 25) :
    Moves s { s.accept rest with pb := pb }.emitFrame := by
  rcases State.channelTakes_or { s.accept rest with pb := pb } 75 with htakes | ⟨n, haccept, hn⟩
  · rw [State.emitFrame_takes _ htakes]
    exact .sent hready rest pb _
  · rw [State.emitFrame_short _ n haccept hn]
    exact .held hready rest pb n hn

/-- A command is one of the moves of the block that took its word. -/
theorem moves_of_exec (s t : State) (hready : s.cmdReady = true) (rest : List Word) (i : Instr)
    (h : exec i (s.accept rest) = .next t) : Moves s t := by
  rcases exec_cases i (s.accept rest) with ⟨row, col, -, ht⟩ | ⟨k, r, g, b, -, ht⟩ | ⟨-, ht⟩ | ⟨-, ht⟩ |
    ⟨g, -, ht⟩ | ⟨code, hcode, ht⟩ <;> obtain rfl := Host.Outcome.next.inj (ht.symm.trans h)
  · exact .map hready rest _
  · exact .setpx hready rest k _
  · exact moves_emitFrame s hready rest s.pb
  · exact moves_emitFrame s hready rest _
  · exact moves_emitFrame s hready rest _
  · exact .fault hready rest code _ ((wordFault_encode i).trans hcode)

/-- A step with a next state is one of the moves. -/
theorem moves_of_step (s t : State) (h : step s = .next t) : Moves s t := by
  have ready_of_offers {w rest} (ho : s.Offers w rest) : s.cmdReady = true :=
    let ⟨hrst, hfault, hbusy, _⟩ := ho
    s.cmdReady_iff.mpr ⟨hrst, hfault, hbusy⟩
  rcases step_cases s t h with ⟨hrst, rfl⟩ | ⟨hrst, hfault, hbusy, -, rfl⟩ | ⟨w, rest, code, ho, hd, rfl⟩ |
    ⟨w, rest, i, ho, -, ht⟩
  · exact .reset hrst
  · exact .wait (s.cmdReady_iff.mpr ⟨hrst, hfault, hbusy⟩)
  · exact .fault (ready_of_offers ho) rest code w (by simp only [wordFault, hd])
  · exact moves_of_exec s t (ready_of_offers ho) rest i ht

/-! ### The command port (R21, R144) -/

/-- Settles O8: the step that takes a word runs it whole, ports included, and of the other steps only reset has a
next state. -/
theorem commandsTakenInOrder : Obligations.CommandsTakenInOrder := by
  refine ⟨fun s t w rest ho ht => ?_, fun s t hnot ht => ?_⟩
  · obtain ⟨u, hu, hcmd, -⟩ := eachCommandIsOneStep s w rest ho
    obtain rfl := Host.Outcome.next.inj (hu.symm.trans ht)
    exact hcmd
  · have notReady : s.cmdReady ≠ true := fun hready => by
      obtain ⟨hrst, -, hbusy⟩ := s.cmdReady_iff.mp hready
      simp [hrst, hbusy] at hnot
    cases moves_of_step s t ht with
    | reset => rfl
    | _ hready => exact absurd hready notReady

/-! ### The history (R31, R82) -/

/-- Settles O28: of the moves without reset, `sent` alone writes the history. -/
theorem historyGrowsByOneFrame : Obligations.HistoryGrowsByOneFrame := by
  intro s t hrst ht
  cases moves_of_step s t ht with
  | reset hreset => exact absurd (hrst.symm.trans hreset) Bool.false_ne_true
  | sent => exact .inr rfl
  | wait => exact .inl rfl
  | map => exact .inl rfl
  | setpx => exact .inl rfl
  | held => exact .inl rfl
  | fault => exact .inl rfl

/-! ### The gap (R30, R145) -/

/-- The timer after a move: restarted by reset or by a frame sent, waited out by a frame held, or moved on by the
time that passes. -/
theorem Moves.gap {s t : State} (h : Moves s t) :
    (t.gapPending = true ∧ t.gapTimer = 0 ∧ (s.rst = true ∨ t.txh ≠ s.txh)) ∨
    (s.rst = false ∧ t.txh = s.txh ∧ t.gapPending = false ∧ Config.tGap ≤ t.gapTimer) ∨
    (s.rst = false ∧ t.txh = s.txh ∧ t.gapPending = s.passTime.gapPending ∧
      t.gapTimer = s.passTime.gapTimer) := by
  have released (hready : s.cmdReady = true) : s.rst = false :=
    let ⟨hrst, _, _⟩ := s.cmdReady_iff.mp hready
    hrst
  cases h with
  | reset hrst => exact .inl ⟨rfl, rfl, .inl hrst⟩
  | sent => exact .inl ⟨rfl, rfl, .inr (by simp)⟩
  | held hready => exact .inr (.inl ⟨released hready, rfl, rfl, Nat.le_max_right _ _⟩)
  | wait hready => exact .inr (.inr ⟨released hready, rfl, rfl, rfl⟩)
  | map hready => exact .inr (.inr ⟨released hready, rfl, rfl, rfl⟩)
  | setpx hready => exact .inr (.inr ⟨released hready, rfl, rfl, rfl⟩)
  | fault hready => exact .inr (.inr ⟨released hready, rfl, rfl, rfl⟩)

/-- The time that passes clears a pending gap only at `T_GAP`. -/
theorem State.passTime_clears (s : State) (hs : s.gapPending = true) (ht : s.passTime.gapPending = false) :
    Config.tGap ≤ s.passTime.gapTimer := by
  simpa [hs] using ht

/-- Settles O30: each clause in the three ways the timer goes. -/
theorem gapClearsOnlyAfterTGap : Obligations.GapClearsOnlyAfterTGap := by
  intro s t ht
  rcases (moves_of_step s t ht).gap with ⟨hp, h0, hwhy⟩ | ⟨hrst, htxh, hp, hT⟩ | ⟨hrst, htxh, hp, hT⟩
  · refine ⟨fun _ hclear => ?_, fun _ => ⟨hp, h0⟩, fun _ => ⟨hp, h0⟩, fun hrst htxh _ => ?_⟩
    · exact absurd (hp.symm.trans hclear) (by decide)
    · simp [hrst, htxh] at hwhy
  · exact ⟨fun _ _ => hT, fun hne => absurd htxh hne, fun hr => by simp [hrst] at hr, fun _ _ _ => hp⟩
  · refine ⟨fun hs hclear => ?_, fun hne => absurd htxh hne, fun hr => by simp [hrst] at hr, fun _ _ hs => ?_⟩
    · rw [hT]
      exact s.passTime_clears hs (hp.symm.trans hclear)
    · rw [hp, State.passTime_gapPending, hs, Bool.false_and]

/-! ### The invariant, clause by clause -/

/-- Without a fault, the fault registers being as they were is enough. -/
theorem State.FaultRecorded.congr {s t : State} (hs : s.FaultRecorded) (hrun : s.status.fault = false)
    (hfault : t.status.fault = s.status.fault) (hfcode : t.status.fcode = s.status.fcode)
    (hcmd : t.faultCmd = s.faultCmd) : t.FaultRecorded := by
  simp only [State.FaultRecorded, hfault, hfcode, hcmd, hrun] at hs ⊢
  exact hs

/-- Fault entry records what `FaultRecorded` asks for (R121). -/
theorem State.faultRecorded_raise (s : State) (code : FaultCode) (w : Word) (h : wordFault w = some code) :
    (s.raise code w).FaultRecorded :=
  ⟨rfl, code, h, rfl⟩

/-- A block that is not busy holds no bytes. -/
theorem State.frameInProgress_of_not_busy (s : State) (hbusy : s.status.busy = false) :
    s.FrameInProgress ↔ s.tx = [] := by
  simp [State.FrameInProgress, hbusy]

/-- The fault registers move only together, at reset and at fault entry (R121, R140). -/
theorem Moves.faultRecorded {s t : State} (h : Moves s t) (hs : s.FaultRecorded) : t.FaultRecorded := by
  have running (hready : s.cmdReady = true) : s.status.fault = false :=
    let ⟨_, hfault, _⟩ := s.cmdReady_iff.mp hready
    hfault
  cases h with
  | reset => exact ⟨rfl, rfl⟩
  | fault _ _ code w hcode => exact State.faultRecorded_raise _ code w hcode
  | wait hready => exact hs.congr (running hready) rfl rfl rfl
  | map hready => exact hs.congr (running hready) rfl rfl rfl
  | setpx hready => exact hs.congr (running hready) rfl rfl rfl
  | sent hready => exact hs.congr (running hready) rfl rfl rfl
  | held hready => exact hs.congr (running hready) rfl rfl rfl

/-- MAP alone writes `LAST_IDX`, and it writes an index (R74). -/
theorem Moves.lastIdxValid {s t : State} (h : Moves s t) (hs : s.LastIdxValid) : t.LastIdxValid := by
  cases h with
  | reset => exact Nat.zero_le _
  | map _ _ k =>
    have small : (BitVec.ofNat 5 k.val).toNat ≤ 24 := by rw [BitVec.toNat_ofNat]; omega
    exact small
  | _ => exact hs

/-- A frame is appended whole (R82). -/
theorem Moves.framesWhole {s t : State} (h : Moves s t) (hs : s.FramesWhole) : t.FramesWhole := by
  cases h with
  | reset => exact List.forall_mem_nil _
  | sent _ _ pb =>
    exact List.forall_mem_append.mpr ⟨hs, List.forall_mem_singleton.mpr (frameOf_length _ pb)⟩
  | _ => exact hs

/-- The timer counts past `T_GAP` and does not come back while `GAP_PENDING` is 0 (R145). -/
theorem Moves.gapKept {s t : State} (h : Moves s t) (hs : s.GapKept) : t.GapKept := by
  intro hclear
  rcases h.gap with ⟨hp, -⟩ | ⟨-, -, -, hT⟩ | ⟨-, -, hp, hT⟩
  · exact absurd (hp.symm.trans hclear) (by decide)
  · exact hT
  · rw [hT]
    cases hpending : s.gapPending with
    | true => exact s.passTime_clears hpending (hp.symm.trans hclear)
    | false => exact (hs hpending).trans (Nat.le_add_right _ _)

/-- Only a frame held leaves bytes, and it leaves the end of the buffer's frame (R84). -/
theorem Moves.frameInProgress {s t : State} (h : Moves s t) (hs : s.FrameInProgress) : t.FrameInProgress := by
  have notBusy (hready : s.cmdReady = true) : s.status.busy = false :=
    let ⟨_, _, hbusy⟩ := s.cmdReady_iff.mp hready
    hbusy
  have empty (hready : s.cmdReady = true) : s.tx = [] :=
    (s.frameInProgress_of_not_busy (notBusy hready)).mp hs
  cases h with
  | reset => exact rfl
  | sent => exact rfl
  | held _ _ pb n hn =>
    have left : (frameOf Config.wireOrder pb).drop n ≠ [] := by
      rw [← List.length_pos_iff, List.length_drop, frameOf_length]
      omega
    exact ⟨rfl, left, n, rfl⟩
  | wait hready => exact (s.passTime.frameInProgress_of_not_busy (notBusy hready)).mpr (empty hready)
  | map hready => exact empty hready
  | setpx hready => exact empty hready
  | fault hready => exact empty hready

/-- Settles O39: each clause is kept by every move. -/
theorem stepKeepsInvariant : Obligations.StepKeepsInvariant := by
  intro s t ⟨hfault, hidx, hframes, hgap, hprogress⟩ ht
  have h := moves_of_step s t ht
  exact ⟨h.faultRecorded hfault, h.lastIdxValid hidx, h.framesWhole hframes, h.gapKept hgap,
    h.frameInProgress hprogress⟩

end Sys2Proof.Machine

/-! PROOFS. What addresses nothing, and what reaches the transmit port (20_memory.md), for O15, O19 and O29. -/

namespace Sys2Proof.Machine

open Sys2Proof

/-! ### Operands out of range (R41) -/

/-- A command with a range fault takes it, with its own word, and does nothing else (R120, R122). -/
theorem exec_of_rangeFault (i : Instr) (s : State) (code : FaultCode) (h : rangeFault i = some code) :
    exec i s = .next (s.raise code (encode i)) := by
  cases i with
  | map row col =>
    obtain ⟨hout, ⟨⟩⟩ := Option.ite_none_right_eq_some.mp h
    simp only [exec, execMap, coordinate_eq_none row col hout]
  | setpx idx r g b =>
    obtain ⟨hout, ⟨⟩⟩ := Option.ite_none_right_eq_some.mp h
    simp only [exec, execSetpx, bufferIndex_eq_none idx hout]
  | flush => cases h
  | clear => cases h
  | draw glyph =>
    obtain ⟨hout, ⟨⟩⟩ := Option.ite_none_right_eq_some.mp h
    simp only [exec, execDraw, glyphId_eq_none glyph hout]

/-- Settles O15: both operands have a range fault, and the commands take it. -/
theorem outOfRangeAddressFaults : Obligations.OutOfRangeAddressFaults :=
  ⟨fun s idx r g b hout => exec_of_rangeFault (.setpx idx r g b) s .indexRange (if_pos hout),
    fun s glyph hout => exec_of_rangeFault (.draw glyph) s .glyphRange (if_pos hout)⟩

/-! ### Emission is not idempotent (R46) -/

/-- The frame primitive completes only when the channel accepts all 75 bytes (R84). -/
theorem State.channelTakes_of_emitFrame (s : State) (h : s.emitFrame.status.busy = false) :
    s.channelTakes 75 := by
  rcases s.channelTakes_or 75 with htakes | ⟨n, haccept, hn⟩
  · exact htakes
  · rw [State.emitFrame_short s n haccept hn] at h
    cases h

/-- A FLUSH that completes appends the frame of the buffer and keeps the buffer (R81). -/
theorem flush_completed (s t : State) (h : exec .flush s = .next t) (hdone : t.status.busy = false) :
    t.txh = s.txh ++ [frameOf Config.wireOrder s.pb] ∧ t.pb = s.pb := by
  obtain rfl : s.emitFrame = t := Host.Outcome.next.inj h
  rw [State.emitFrame_takes s (s.channelTakes_of_emitFrame hdone)]
  exact ⟨rfl, rfl⟩

/-- Settles O19: the first FLUSH keeps the buffer, so the second appends the same frame. -/
theorem repeatedFlushRepeatsFrame : Obligations.RepeatedFlushRepeatsFrame := by
  intro s t u hfirst hsecond ht hu
  obtain ⟨hsent, hkept⟩ := flush_completed s t hfirst ht
  obtain ⟨hsentAgain, -⟩ := flush_completed t u hsecond hu
  rw [hsentAgain, hkept, hsent, List.append_assoc, List.singleton_append]

/-! ### Only the frame commands reach the transmit port (R46) -/

/-- A command that does not end in the frame primitive leaves the transmit port as it was. -/
theorem exec_keeps_port (i : Instr) (s t : State) (hi : ¬ sendsFrame i) (h : exec i s = .next t) :
    t.txh = s.txh ∧ t.tx = s.tx ∧ t.txAccept = s.txAccept := by
  rcases exec_cases i s with ⟨row, col, -, ht⟩ | ⟨k, r, g, b, -, ht⟩ | ⟨rfl, -⟩ | ⟨rfl, -⟩ |
    ⟨g, rfl, -⟩ | ⟨code, -, ht⟩
  case inr.inr.inl => exact absurd (.inl rfl) hi
  case inr.inr.inr.inl => exact absurd (.inr (.inl rfl)) hi
  case inr.inr.inr.inr.inl => exact absurd (.inr (.inr rfl)) hi
  -- MAP, SETPX and fault entry write no field of the port.
  all_goals
    obtain rfl := Host.Outcome.next.inj (ht.symm.trans h)
    exact ⟨rfl, rfl, rfl⟩

/-- A word whose `op` is that of no frame command leaves the transmit port as it was, rejected or run. -/
theorem runWord_keeps_port (w : Word) (s t : State)
    (hop : ¬ (opField w = 0b011#3 ∨ opField w = 0b100#3 ∨ opField w = 0b101#3)) (h : runWord w s = .next t) :
    t.txh = s.txh ∧ t.tx = s.tx ∧ t.txAccept = s.txAccept := by
  unfold runWord at h
  cases hd : decode w with
  | error code =>
    obtain rfl : s.raise code w = t := by simpa only [hd, Host.Outcome.next.injEq] using h
    exact ⟨rfl, rfl, rfl⟩
  | ok i =>
    have hi : ¬ sendsFrame i := by rwa [sendsFrame, opcode_of_decode w i hd]
    exact exec_keeps_port i s t hi (by simpa only [hd] using h)

/-- Settles O29: the step runs the word at the state that took it, which has the same transmit port. -/
theorem onlyFrameCommandsSend : Obligations.OnlyFrameCommandsSend := by
  intro s t w rest hoffers hflush hclear hdraw h
  have hop : ¬ (opField w = 0b011#3 ∨ opField w = 0b100#3 ∨ opField w = 0b101#3) :=
    not_or.mpr ⟨hflush, not_or.mpr ⟨hclear, hdraw⟩⟩
  exact runWord_keeps_port w (s.accept rest) t hop ((step_of_offers s w rest hoffers).symm.trans h)

end Sys2Proof.Machine

/-! PROOFS. Decoding, encoding and the assembler (30_encoding.md), for O1 to O7, O41 and O42. -/

namespace Sys2Proof.Machine

open Sys2Proof

/-! ### What the decoder answers (R57, R61) -/

/-- R60's words, by their operation field. -/
theorem opIllegal_iff (w : Word) :
    opIllegal w = true ↔ opField w = 0b000#3 ∨ opField w = 0b110#3 ∨ opField w = 0b111#3 := by
  simp only [opIllegal, Bool.or_eq_true, beq_iff_eq, or_assoc]

/-- R59's words, by their operation and reserved fields. -/
theorem reservedSet_iff (w : Word) : reservedSet w = true ↔
    (opField w = 0b001#3 ∧ w.extractLsb 28 6 ≠ 0#23) ∨ (opField w = 0b011#3 ∧ w.extractLsb 28 0 ≠ 0#29) ∨
    (opField w = 0b100#3 ∧ w.extractLsb 28 0 ≠ 0#29) ∨ (opField w = 0b101#3 ∧ w.extractLsb 28 4 ≠ 0#25) := by
  simp only [reservedSet, Bool.or_eq_true, Bool.and_eq_true, beq_iff_eq, bne_iff_ne, or_assoc]

/-- The answers the decoder can give for `w`, each with the fields of `w` that call for it: a rejection, or one of
the five commands, whose reserved field, where it has one, is zero. -/
inductive Decoding (w : Word) : Except FaultCode Instr → Prop where
  | illegal (hop : opIllegal w = true) : Decoding w (.error .illegalOpcode)
  | reserved (hres : reservedSet w = true) : Decoding w (.error .reservedBits)
  | map (hop : opField w = 0b001#3) (hres : w.extractLsb 28 6 = 0#23) :
      Decoding w (.ok (.map (w.extractLsb 5 3) (w.extractLsb 2 0)))
  | setpx (hop : opField w = 0b010#3) :
      Decoding w (.ok (.setpx (w.extractLsb 28 24) (w.extractLsb 23 16) (w.extractLsb 15 8) (w.extractLsb 7 0)))
  | flush (hop : opField w = 0b011#3) (hres : w.extractLsb 28 0 = 0#29) : Decoding w (.ok .flush)
  | clear (hop : opField w = 0b100#3) (hres : w.extractLsb 28 0 = 0#29) : Decoding w (.ok .clear)
  | draw (hop : opField w = 0b101#3) (hres : w.extractLsb 28 4 = 0#25) :
      Decoding w (.ok (.draw (w.extractLsb 3 0)))

/-- A word that passes both checks is one of the five commands (R57). -/
theorem decoding_dispatchWord (w : Word) (hop : opIllegal w = false) (hres : reservedSet w = false) :
    Decoding w (.ok (dispatchWord w)) := by
  have hcode := opcode_dispatchWord w hop
  simp only [← Bool.not_eq_true, reservedSet_iff, not_or, not_and_not_right] at hres
  obtain ⟨hmap, hflush, hclear, hdraw⟩ := hres
  unfold dispatchWord at hcode ⊢
  split_ifs at hcode ⊢
  · exact .map hcode.symm (hmap hcode.symm)
  · exact .setpx hcode.symm
  · exact .flush hcode.symm (hflush hcode.symm)
  · exact .clear hcode.symm (hclear hcode.symm)
  · exact .draw hcode.symm (hdraw hcode.symm)

/-- What the decoder answers is one of its possible answers. -/
theorem decoding_decode (w : Word) : Decoding w (decode w) := by
  unfold decode
  split_ifs with hop hres
  · exact .illegal hop
  · exact .reserved hres
  · exact decoding_dispatchWord w (Bool.eq_false_iff.mpr hop) (Bool.eq_false_iff.mpr hres)

/-- The first check decides alone (R60, R61). -/
theorem decode_eq_illegalOpcode_iff (w : Word) : decode w = .error .illegalOpcode ↔ opIllegal w = true := by
  refine ⟨fun h => ?_, fun h => if_pos h⟩
  cases h ▸ decoding_decode w with
  | illegal hop => exact hop

/-- A reserved bit belongs to a legal operation, so the second check applies (R59, R61). -/
theorem decode_of_reservedSet (w : Word) (hres : reservedSet w = true) : decode w = .error .reservedBits := by
  have hlegal : ¬ opIllegal w = true := by
    rw [opIllegal_iff]
    rcases (reservedSet_iff w).mp hres with ⟨hop, -⟩ | ⟨hop, -⟩ | ⟨hop, -⟩ | ⟨hop, -⟩ <;> rw [hop] <;> decide
  rw [decode, if_neg hlegal, if_pos hres]

/-! ### Decoding and encoding are inverse (R57) -/

/-- Settles O2: the decoder reads back every field the encoder lays out (`decode_encode`). -/
theorem decodeOfEncodedCommand : Obligations.DecodeOfEncodedCommand := decode_encode

/-- Two neighbouring fields hold `x` and `y` when the one field they make up holds `x ++ y`. -/
theorem extractLsb'_eq_append_iff {l m n : Nat} (w : BitVec l) (lo : Nat) (x : BitVec m) (y : BitVec n) :
    w.extractLsb' lo (m + n) = x ++ y ↔ w.extractLsb' (lo + n) m = x ∧ w.extractLsb' lo n = y := by
  rw [← BitVec.extractLsb'_append_extractLsb'_eq_extractLsb' rfl]
  refine ⟨fun h => ⟨?_, ?_⟩, fun ⟨hx, hy⟩ => by rw [hx, hy]⟩
  · simpa only [BitVec.extractLsb'_append_eq_left] using congrArg (BitVec.extractLsb' n m) h
  · simpa only [BitVec.setWidth_append_eq_right] using congrArg (BitVec.setWidth n) h

/-- Settles O3: the fields that the decoder has checked or read off, from bit 31 down, are the whole word. -/
theorem encodeOfDecodedWord : Obligations.EncodeOfDecodedWord := by
  intro w i h
  have join (lo n : Nat) {m : Nat} {x : BitVec m} {y : BitVec n} (hx : w.extractLsb' (lo + n) m = x)
      (hy : w.extractLsb' lo n = y) : w.extractLsb' lo (m + n) = x ++ y :=
    (extractLsb'_eq_append_iff w lo x y).mpr ⟨hx, hy⟩
  suffices hword : w.extractLsb' 0 32 = encode i from hword.symm.trans BitVec.extractLsb'_eq_self
  cases h ▸ decoding_decode w with
  | map hop hres => exact join 0 3 (join 3 3 (join 6 23 hop hres) rfl) rfl
  | setpx hop => exact join 0 8 (join 8 8 (join 16 8 (join 24 5 hop rfl) rfl) rfl) rfl
  | flush hop hres => exact join 0 29 hop hres
  | clear hop hres => exact join 0 29 hop hres
  | draw hop hres => exact join 0 4 (join 4 25 hop hres) rfl

/-! ### The opcode table (R61) -/

/-- A mask of the upper `m` bits looks at those bits only. -/
theorem and_mask_eq_iff {m n : Nat} (w : BitVec (m + n)) (x : BitVec m) :
    w &&& (BitVec.allOnes m ++ 0#n) = x ++ 0#n ↔ w.extractLsb' n m = x := by
  have hw : w = w.extractLsb' n m ++ w.extractLsb' 0 n := by
    rw [BitVec.extractLsb'_append_extractLsb'_eq_extractLsb' (Nat.zero_add n).symm, BitVec.extractLsb'_eq_self]
  conv_lhs => rw [hw, BitVec.and_append, BitVec.and_allOnes, BitVec.and_zero, BitVec.append_left_inj]

/-- A row of the table whose `r` reserved bits lie between the operation field and the `n` operand bits. -/
theorem and_mask_eq_append_iff {r n : Nat} (w : BitVec (3 + r + n)) (op : BitVec 3) :
    w &&& (BitVec.allOnes (3 + r) ++ 0#n) = op ++ 0#r ++ 0#n ↔
      w.extractLsb' (n + r) 3 = op ∧ w.extractLsb' n r = 0#r :=
  (and_mask_eq_iff w (op ++ 0#r)).trans (extractLsb'_eq_append_iff w n op 0#r)

/-- MAP's row (R57). -/
theorem rowMatches_map (w : Word) : rowMatches w ⟨0x20000000#32, 0xFFFFFFC0#32⟩ = true ↔
    opField w = 0b001#3 ∧ w.extractLsb 28 6 = 0#23 :=
  beq_iff_eq.trans (and_mask_eq_append_iff (r := 23) (n := 6) w 0b001#3)

/-- SETPX's row (R57). -/
theorem rowMatches_setpx (w : Word) : rowMatches w ⟨0x40000000#32, 0xE0000000#32⟩ = true ↔
    opField w = 0b010#3 :=
  beq_iff_eq.trans (and_mask_eq_iff (n := 29) w 0b010#3)

/-- FLUSH's row (R57). -/
theorem rowMatches_flush (w : Word) : rowMatches w ⟨0x60000000#32, 0xFFFFFFFF#32⟩ = true ↔
    opField w = 0b011#3 ∧ w.extractLsb 28 0 = 0#29 :=
  beq_iff_eq.trans (and_mask_eq_append_iff (r := 29) (n := 0) w 0b011#3)

/-- CLEAR's row (R57). -/
theorem rowMatches_clear (w : Word) : rowMatches w ⟨0x80000000#32, 0xFFFFFFFF#32⟩ = true ↔
    opField w = 0b100#3 ∧ w.extractLsb 28 0 = 0#29 :=
  beq_iff_eq.trans (and_mask_eq_append_iff (r := 29) (n := 0) w 0b100#3)

/-- DRAW's row (R57). -/
theorem rowMatches_draw (w : Word) : rowMatches w ⟨0xA0000000#32, 0xFFFFFFF0#32⟩ = true ↔
    opField w = 0b101#3 ∧ w.extractLsb 28 4 = 0#25 :=
  beq_iff_eq.trans (and_mask_eq_append_iff (r := 25) (n := 4) w 0b101#3)

/-- Settles O4: the fixed bits of each row are the fields that the decoder has checked. -/
theorem decodedWordsAreTableRows : Obligations.DecodedWordsAreTableRows := by
  intro w
  simp only [tableRows, List.filter_cons, rowMatches_map, rowMatches_setpx, rowMatches_flush, rowMatches_clear,
    rowMatches_draw, List.filter_nil]
  have hd := decoding_decode w
  generalize decode w = d at hd
  cases hd with
  | illegal hop =>
    refine ⟨?_, .inl rfl⟩
    rcases (opIllegal_iff w).mp hop with hop | hop | hop <;> simp [hop]
  | reserved hres =>
    refine ⟨?_, .inr rfl⟩
    rcases (reservedSet_iff w).mp hres with ⟨hop, hres⟩ | ⟨hop, hres⟩ | ⟨hop, hres⟩ | ⟨hop, hres⟩ <;>
      simp [hop, hres]
  | map hop hres => simp [hop, hres, rowOf]
  | setpx hop => simp [hop, rowOf]
  | flush hop hres => simp [hop, hres, rowOf]
  | clear hop hres => simp [hop, hres, rowOf]
  | draw hop hres => simp [hop, hres, rowOf]

/-! ### The step that takes a word (R61) -/

/-- A word that the decoder rejects takes its fault and has no other effect than to leave the port (R121). -/
theorem step_of_rejected (s : State) (w : Word) (rest : List Word) (code : FaultCode) (ho : s.Offers w rest)
    (hd : decode w = .error code) : ∃ t, step s = .next t ∧ t.withoutTimer =
      { s.withoutTimer with cmdIn := rest, status := Status.faulted code, faultCmd := w } := by
  refine ⟨(s.accept rest).raise code w, ?_, rfl⟩
  rw [step_of_offers s w rest ho, runWord, hd]

/-- Settles O5: the decoder's first check, and the step that takes a rejected word. -/
theorem illegalOpcodeFaults : Obligations.IllegalOpcodeFaults := by
  have hdecode (w : Word) := (decode_eq_illegalOpcode_iff w).trans (opIllegal_iff w)
  exact ⟨fun s w rest ho hop => step_of_rejected s w rest _ ho ((hdecode w).mpr hop), hdecode⟩

/-- Settles O6: the decoder's second check, and the step that takes a rejected word. -/
theorem reservedBitFaults : Obligations.ReservedBitFaults := fun s w rest ho hres =>
  step_of_rejected s w rest _ ho (decode_of_reservedSet w ((reservedSet_iff w).mpr hres))

/-- Settles O7: the state written out is the one that has accepted the word. -/
theorem stepRunsDecodedCommand : Obligations.StepRunsDecodedCommand := by
  intro s w rest i ho hd
  have hrun : runWord w (s.accept rest) = exec i (s.accept rest) := by rw [runWord, hd]
  exact (step_of_offers s w rest ho).trans hrun

/-- Settles O1: six of the words are encoded commands, so they decode to those; the other two fail the checks. -/
theorem specWordsDecode : Obligations.SpecWordsDecode :=
  ⟨decode_encode (.map 1#3 0#3), decode_encode (.setpx 12#5 255#8 0#8 0#8),
    decode_encode (.setpx 15#5 10#8 20#8 30#8), decode_encode .flush, decode_encode .clear,
    decode_encode (.draw 10#4), decode_of_reservedSet _ (by decide),
    (decode_eq_illegalOpcode_iff _).mpr (by decide)⟩

/-! ### The assembler's arithmetic words (R63) -/

/-- MAP's word for operands that fit their fields. -/
theorem asmMap_eq_encode (row col : Nat) (hrow : row ≤ 7) (hcol : col ≤ 7) :
    asmMap row col = encode (.map (BitVec.ofNat 3 row) (BitVec.ofNat 3 col)) := by
  have fits : ∀ row col : Fin 8,
      asmMap row.val col.val = encode (.map (BitVec.ofNat 3 row.val) (BitVec.ofNat 3 col.val)) := by decide
  exact fits ⟨row, Nat.lt_succ_of_le hrow⟩ ⟨col, Nat.lt_succ_of_le hcol⟩

/-- SETPX's word for operands that fit their fields. -/
theorem asmSetpx_eq_encode (idx r g b : Nat) (hidx : idx ≤ 31) (hr : r ≤ 255) (hg : g ≤ 255) (hb : b ≤ 255) :
    asmSetpx idx r g b =
      encode (.setpx (BitVec.ofNat 5 idx) (BitVec.ofNat 8 r) (BitVec.ofNat 8 g) (BitVec.ofNat 8 b)) := by
  apply BitVec.eq_of_toNat_eq
  rw [encode_setpx_toNat]
  simp only [asmSetpx, BitVec.toNat_ofNat, Nat.shiftLeft_eq]
  omega

/-- DRAW's word for an operand that fits its field. -/
theorem asmDraw_eq_encode (glyph : Nat) (hglyph : glyph ≤ 15) :
    asmDraw glyph = encode (.draw (BitVec.ofNat 4 glyph)) := by
  have fits : ∀ glyph : Fin 16, asmDraw glyph.val = encode (.draw (BitVec.ofNat 4 glyph.val)) := by decide
  exact fits ⟨glyph, Nat.lt_succ_of_le hglyph⟩

/-! ### Source lines (R63, R64) -/

/-- A channel fits its field when it is a byte. -/
theorem channelFits_iff (v : Nat) : channelFits v = true ↔ v ≤ 255 := decide_eq_true_iff

/-- An accepted line gives its words, and any other is refused. -/
theorem assemble_eq_ite (a : Asm) (fits : Prop) [Decidable fits] (ws : List Word)
    (hfits : a.wellFormed = true ↔ fits) (hwords : fits → Asm.words a = ws) :
    assemble a = if fits then some ws else none := by
  unfold assemble
  split_ifs with hwf hf hf
  · rw [hwords hf]
  · exact absurd (hfits.mp hwf) hf
  · exact absurd (hfits.mpr hf) hwf
  · rfl

/-- Settles O41: form by form, the operands' bounds and the word for operands within them. -/
theorem assemblerMakesCommandWords : Obligations.AssemblerMakesCommandWords := by
  refine ⟨fun row col => ?_, fun idx r g b => ?_, rfl, rfl, fun glyph => ?_⟩
  · exact assemble_eq_ite _ _ _ (by simp [Asm.wellFormed])
      fun ⟨hrow, hcol⟩ => congrArg List.singleton (asmMap_eq_encode row col hrow hcol)
  · exact assemble_eq_ite _ _ _ (by simp [Asm.wellFormed, channelFits_iff, and_assoc])
      fun ⟨hidx, hr, hg, hb⟩ => congrArg List.singleton (asmSetpx_eq_encode idx r g b hidx hr hg hb)
  · exact assemble_eq_ite _ _ _ (by simp [Asm.wellFormed])
      fun hglyph => congrArg List.singleton (asmDraw_eq_encode glyph hglyph)

/-- SETRC of a cell of the grid is SETPX at the cell's index (R64). -/
theorem assemble_setrc (row col : Fin 5) (r g b : Nat) :
    assemble (.setrc row.val col.val r g b) = assemble (.setpx (index row col).val r g b) := by
  have hrow : row.val ≤ 4 := by omega
  have hcol : col.val ≤ 4 := by omega
  have hidx : (index row col).val ≤ 31 := by omega
  have hasm : asmIndex row.val col.val = (index row col).val := dif_pos ⟨row.isLt, col.isLt⟩
  simp [assemble, Asm.wellFormed, Asm.words, hrow, hcol, hidx, hasm]

/-- The words of FILL: the 25 SETPX words in ascending index, then FLUSH's (R64). -/
theorem words_fill (r g b : Byte) : Asm.words (.fill r.toNat g.toNat b.toNat) =
    (List.range 25).map (fun i => encode (.setpx (BitVec.ofNat 5 i) r g b)) ++ [encode .flush] := by
  have hword (i : Fin 25) :
      asmSetpx i.val r.toNat g.toNat b.toNat = encode (.setpx (BitVec.ofNat 5 i.val) r g b) := by
    rw [asmSetpx_eq_encode _ _ _ _ (by omega) (by omega) (by omega) (by omega)]
    simp only [BitVec.ofNat_toNat, BitVec.setWidth_eq]
  rw [← List.map_coe_finRange_eq_range, List.map_map]
  exact congrArg₂ (· ++ ·) (List.map_congr_left fun i _ => hword i) rfl

/-- The glyph names of R65 assemble to the DRAW of their ids. -/
theorem assemble_drawName (name : GlyphName) :
    assemble (.drawName name) = some [encode (.draw (BitVec.ofNat 4 (glyphNumber name)))] := by
  have hid : glyphNumber name ≤ 15 := by cases name <;> decide
  exact congrArg (fun word => some [word]) (asmDraw_eq_encode _ hid)

/-- Settles O42: the expansions of R64, and R65's names one by one. -/
theorem assemblerExpandsPseudoCommands : Obligations.AssemblerExpandsPseudoCommands := by
  refine ⟨assemble_setrc, fun row col r g b hout => ?_, fun r g b => ?_, fun r g b hout => ?_, rfl,
    assemble_drawName .seta1, assemble_drawName .seta2, assemble_drawName .seta3, assemble_drawName .seta4,
    assemble_drawName .seta5, assemble_drawName .seta6, assemble_drawName .seta7, assemble_drawName .seta8,
    assemble_drawName .animA, assemble_drawName .animB, assemble_drawName .animC⟩
  · refine if_neg ?_
    simp only [Asm.wellFormed, Bool.and_eq_true, decide_eq_true_eq]
    omega
  · have hfits : (Asm.fill r.toNat g.toNat b.toNat).wellFormed = true := by
      simp only [Asm.wellFormed, Bool.and_eq_true, channelFits_iff]
      omega
    exact (if_pos hfits).trans (congrArg some (words_fill r g b))
  · refine if_neg ?_
    simp only [Asm.wellFormed, Bool.and_eq_true, channelFits_iff]
    omega

end Sys2Proof.Machine

/-! PROOFS. The serpentine decoder, MAP, and what a frame shows (40_matrix_addressing.md), for O10 to O13 and O17. -/

namespace Sys2Proof.Machine

open Sys2Proof

/-! ### The decoder and its inverse, as arithmetic (R70, R73) -/

/-- R70's formula. -/
theorem index_val (row col : Fin 5) : (index row col).val =
    if row.val % 2 = 0 then 24 - (5 * row.val + col.val) else 24 - (5 * row.val + (4 - col.val)) := by
  unfold index
  split_ifs <;> rfl

/-- The row of R73's formula. -/
theorem cell_row_val (i : Fin 25) : (cell i).1.val = (24 - i.val) / 5 := by
  simp only [cell]
  split_ifs <;> rfl

/-- The column of R73's formula. -/
theorem cell_col_val (i : Fin 25) : (cell i).2.val =
    if (24 - i.val) / 5 % 2 = 0 then (24 - i.val) % 5 else 4 - (24 - i.val) % 5 := by
  simp only [cell]
  split_ifs <;> rfl

/-- `Index` undoes `Cell`: `24 - i` is five times its quotient plus its remainder (R73). -/
theorem index_cell (i : Fin 25) : index (cell i).1 (cell i).2 = i := by
  apply Fin.ext
  rw [index_val, cell_row_val, cell_col_val]
  split_ifs <;> omega

/-- `Cell` undoes `Index`: the row is the quotient, the column or its mirror image the remainder (R73). -/
theorem cell_index (row col : Fin 5) : cell (index row col) = (row, col) := by
  have hidx := index_val row col
  have hrow : (cell (index row col)).1 = row := by
    apply Fin.ext
    rw [cell_row_val]
    split_ifs at hidx <;> omega
  have hcol : (cell (index row col)).2 = col := by
    apply Fin.ext
    rw [cell_col_val, ← cell_row_val, hrow]
    split_ifs at hidx ⊢ <;> omega
  exact Prod.ext hrow hcol

/-- Settles O11: R73's formula, and the two inverse equations. -/
theorem cellInvertsIndex : Obligations.CellInvertsIndex :=
  ⟨fun i => ⟨cell_row_val i, cell_col_val i⟩, index_cell, cell_index⟩

/-- Settles O10: `Cell` is the inverse that makes `Index` a bijection, and R70's formula gives each row's
direction. -/
theorem indexIsSerpentineBijection : Obligations.IndexIsSerpentineBijection := by
  refine ⟨?bijective, fun row col heven => ?even, fun row col hodd => ?odd⟩
  case bijective =>
    exact Function.bijective_iff_has_inverse.mpr ⟨cell, fun ⟨row, col⟩ => cell_index row col, index_cell⟩
  case even =>
    rw [index_val, if_pos heven]
    omega
  case odd =>
    rw [index_val, if_neg (by omega)]
    omega

/-! ### MAP (R74) -/

/-- MAP of a cell of the grid writes the cell's index and completes. -/
theorem exec_map_of_cell (s : State) (row col : BitVec 3) (hrow : row.toNat < 5) (hcol : col.toNat < 5) :
    exec (.map row col) s = .next (s.setLastIdx (index ⟨row.toNat, hrow⟩ ⟨col.toNat, hcol⟩)).complete := by
  simp only [exec, execMap, coordinate_eq_some row col hrow hcol]

/-- Settles O12: the index that MAP writes is that of R70's formula. -/
theorem mapWritesLastIdx : Obligations.MapWritesLastIdx := by
  intro s row col hrow hcol
  rw [exec_map_of_cell s row col (by omega) (by omega), State.setLastIdx, index_val]
  rfl

/-- Settles O13: a coordinate above 4 is MAP's range fault, and the command takes it. -/
theorem mapOutOfRangeFaults : Obligations.MapOutOfRangeFaults :=
  fun s row col hout => exec_of_rangeFault (.map row col) s .coordRange (if_pos hout)

/-! ### What a frame shows (R75) -/

/-- Cell `Cell(i)` shows entry `i` of the buffer whose frame was sent (R75, R82). -/
theorem shownAt_frameOf_cell (order : WireOrder) (pb : Vector Pixel 25) (i : Fin 25) :
    shownAt (frameOf order pb) (cell i).1 (cell i).2 = pixelBytes order (pixelAt pb i) := by
  rw [shownAt_cell, frameTriple_frameOf]

/-- Settles O17: a grid cell is `Cell` of its index, so it shows the entry at that index. -/
theorem frameShowsCellAtItsIndex : Obligations.FrameShowsCellAtItsIndex := by
  refine ⟨shownAt_cell, shownAt_frameOf_cell, fun order pb row col => ?_⟩
  simpa only [cell_index] using shownAt_frameOf_cell order pb (index row col)

end Sys2Proof.Machine

/-! PROOFS. The pixel buffer and its frames (41_pixel_buffer.md), for O14, O16, O18, O20, O25 and O27. -/

namespace Sys2Proof.Machine

open Sys2Proof

/-! ### Commands whose operand is in range (R80, R101) -/

/-- SETPX of an index of the buffer writes that entry and completes. -/
theorem exec_setpx_of_index (s : State) (idx : BitVec 5) (r g b : Byte) (i : Fin 25) (h : idx.toNat = i.val) :
    exec (.setpx idx r g b) s = .next (s.setPixel i ⟨r, g, b⟩).complete := by
  have hidx : bufferIndex idx = some i :=
    (bufferIndex_eq_some idx (h ▸ i.isLt)).trans (congrArg some (Fin.ext h))
  simp only [exec, execSetpx, hidx]

/-- DRAW of a glyph id writes the glyph's buffer and goes through the frame primitive. -/
theorem exec_draw_of_glyph (s : State) (glyph : BitVec 4) (g : Fin 11) (h : glyph.toNat = g.val) :
    exec (.draw glyph) s = .next { s with pb := drawnBuffer (Config.glyphRom g) s.pb }.emitFrame := by
  have hid : glyphId glyph = some g :=
    (glyphId_eq_some glyph (h ▸ g.isLt)).trans (congrArg some (Fin.ext h))
  simp only [exec, execDraw, hid, State.drawPixels]

/-- Settles O14: the entry is written whole, and no other. -/
theorem setpxWritesOneEntry : Obligations.SetpxWritesOneEntry := fun s idx r g b i hidx =>
  ⟨_, exec_setpx_of_index s idx r g b i hidx, pixelAt_pixelSet_self s.pb i _,
    fun j hj => pixelAt_pixelSet_of_ne s.pb i j _ hj.symm, rfl⟩

/-! ### The bytes of a frame (R82, R85) -/

/-- Each wire order sends each of the three channels in some place. -/
theorem wireChannel_surjective (order : WireOrder) : Function.Surjective (wireChannel order) := by
  intro c
  cases order <;> cases c <;> decide

/-- Settles O16: the laws of `frameOf`, and the wire order sends every channel. -/
theorem frameByteLayout : Obligations.FrameByteLayout := fun order pb =>
  ⟨frameOf_length order pb, frameOf_getElem? order pb, wireChannel_surjective order⟩

/-- All channels of `OFF_COLOR` are 0. -/
theorem channelOf_offColor (c : Channel) : channelOf Config.offColor c = 0#8 := by
  cases c <;> rfl

/-- The frame of the blank buffer holds zeros only, under every wire order (R83). -/
theorem frameOf_blankBuffer (order : WireOrder) : frameOf order blankBuffer = List.replicate 75 0#8 := by
  refine List.eq_replicate_iff.mpr ⟨frameOf_length order blankBuffer, fun v hv => ?_⟩
  obtain ⟨i, -, hi⟩ := List.mem_flatMap.mp hv
  rw [pixelAt_blankBuffer] at hi
  simpa only [pixelBytes, channelOf_offColor, List.mem_cons, List.not_mem_nil, or_false, or_self] using hi

/-! ### The frame primitive behind a written buffer -/

/-- CLEAR blanks the buffer and goes through the frame primitive (R83). -/
theorem exec_clear (s : State) : exec .clear s = .next { s with pb := blankBuffer }.emitFrame := by
  simp only [exec, execClear, State.clearPixels, clearedBuffer_eq]

/-- A command that has written the buffer and whose frame the channel accepts (R82, R84). -/
theorem State.emitFrame_takes_withBuffer (s : State) (pb : Vector Pixel 25) (htakes : s.channelTakes 75) :
    { s with pb := pb }.emitFrame = { s with
      pb := pb
      txh := s.txh ++ [frameOf Config.wireOrder pb]
      tx := []
      txAccept := s.txAccept.map (fun n => n - 75)
      gapPending := true
      gapTimer := 0
      status := s.status.withBusy false } :=
  State.emitFrame_takes { s with pb := pb } htakes

/-- A command that has written the buffer and whose channel stops before the frame's end (R84). -/
theorem State.emitFrame_short_withBuffer (s : State) (pb : Vector Pixel 25) (n : Nat)
    (haccept : s.txAccept = some n) (hn : n < 75) :
    { s with pb := pb }.emitFrame = { s with
      pb := pb
      tx := (frameOf Config.wireOrder pb).drop n
      txAccept := some 0
      gapPending := false
      gapTimer := max s.gapTimer Config.tGap
      status := s.status.withBusy true } :=
  State.emitFrame_short { s with pb := pb } n haccept hn

/-! ### Frame commands that complete (R81, R83) -/

/-- Settles O18: FLUSH is the frame primitive, completed. -/
theorem flushSendsBuffer : Obligations.FlushSendsBuffer := fun s htakes =>
  congrArg Host.Outcome.next (s.emitFrame_takes htakes)

/-- Settles O20: the frame primitive, completed, sends the frame of the blank buffer. -/
theorem clearBlanksAndSends : Obligations.ClearBlanksAndSends := by
  intro s htakes
  have hsent := s.emitFrame_takes_withBuffer blankBuffer htakes
  rw [frameOf_blankBuffer] at hsent
  exact ⟨_, (exec_clear s).trans (congrArg Host.Outcome.next hsent), pixelAt_blankBuffer, rfl⟩

/-! ### Frame commands whose channel stops (R84) -/

/-- After the loop of DRAW each entry has the colour of the cell whose LED is there (R73, R101). -/
theorem pixelAt_drawnBuffer_cell (bits : Bitmap) (pb : Vector Pixel 25) (j : Fin 25) :
    pixelAt (drawnBuffer bits pb) j = glyphPixel bits (cell j).1 (cell j).2 := by
  simpa only [index_cell] using pixelAt_drawnBuffer bits pb (cell j).1 (cell j).2

/-- Settles O25: each frame command writes its buffer, and then the frame primitive is held up. -/
theorem frameCommandWaitsForChannel : Obligations.FrameCommandWaitsForChannel := by
  rintro s n haccept hn i (rfl | rfl | ⟨glyph, rfl, hglyph⟩)
  case inl =>
    have hheld := s.emitFrame_short n haccept hn
    exact ⟨_, congrArg Host.Outcome.next hheld, rfl, fun _ => rfl, nofun, nofun⟩
  case inr.inl =>
    have hheld := s.emitFrame_short_withBuffer blankBuffer n haccept hn
    exact ⟨_, (exec_clear s).trans (congrArg Host.Outcome.next hheld), rfl, nofun,
      fun _ => pixelAt_blankBuffer, nofun⟩
  case inr.inr =>
    obtain ⟨g, hg⟩ : ∃ g : Fin 11, glyph.toNat = g.val := ⟨⟨glyph.toNat, by omega⟩, rfl⟩
    have hheld := s.emitFrame_short_withBuffer (drawnBuffer (Config.glyphRom g) s.pb) n haccept hn
    refine ⟨_, (exec_draw_of_glyph s glyph g hg).trans (congrArg Host.Outcome.next hheld), rfl, nofun, nofun, ?_⟩
    intro glyph' g' hsame hg'
    obtain rfl := Instr.draw.inj hsame
    obtain rfl : g = g' := Fin.ext (hg.symm.trans hg')
    exact pixelAt_drawnBuffer_cell (Config.glyphRom g) s.pb

/-- Settles O27: the step of a block that is busy between steps (`step_of_busy`). -/
theorem stuckBlockHasNoNextStep : Obligations.StuckBlockHasNoNextStep := step_of_busy

end Sys2Proof.Machine

/-! PROOFS. DRAW (42_glyph_renderer.md), for O21 to O24. -/

namespace Sys2Proof.Machine

open Sys2Proof

/-! ### The buffer that DRAW draws (R101, R102) -/

/-- R102's table: lane `i` reads the bitmap bit that R23 gives the cell `Cell(i)`. -/
theorem laneBit_eq (i : Fin 25) : laneBit i = 5 * (cell i).1.val + (cell i).2.val := by
  revert i
  decide

/-- The lane form of R102: entry `i` is the ON/OFF multiplexer on its lane's bit. -/
theorem pixelAt_drawnBuffer_lane (bits : Bitmap) (pb : Vector Pixel 25) (i : Fin 25) :
    pixelAt (drawnBuffer bits pb) i =
      if bits.getLsbD (laneBit i) then Config.onColor else Config.offColor := by
  rw [pixelAt_drawnBuffer_cell, laneBit_eq, glyphPixel]

/-- Every entry is the entry of some cell, so the loop of DRAW leaves nothing of the buffer it started from. -/
theorem drawnBuffer_eq (bits : Bitmap) (pb pb' : Vector Pixel 25) : drawnBuffer bits pb = drawnBuffer bits pb' :=
  buffer_ext _ _ fun i => (pixelAt_drawnBuffer_cell bits pb i).trans (pixelAt_drawnBuffer_cell bits pb' i).symm

/-! ### Where DRAW leaves the block (R84, R101) -/

/-- DRAW of a glyph id has written the glyph's buffer, whether or not the channel takes the frame. -/
theorem draw_pb (s t : State) (glyph : BitVec 4) (g : Fin 11) (hg : glyph.toNat = g.val)
    (h : exec (.draw glyph) s = .next t) : t.pb = drawnBuffer (Config.glyphRom g) s.pb := by
  rw [exec_draw_of_glyph s glyph g hg] at h
  obtain rfl := Host.Outcome.next.inj h
  obtain ⟨hpb, -⟩ := State.emitFrame_keeps { s with pb := drawnBuffer (Config.glyphRom g) s.pb }
  exact hpb

/-- Past the glyph's loop DRAW is FLUSH, so a DRAW that completes appends the frame of the buffer it leaves. -/
theorem draw_completed_txh (s t : State) (glyph : BitVec 4) (g : Fin 11) (hg : glyph.toNat = g.val)
    (h : exec (.draw glyph) s = .next t) (hdone : t.status.busy = false) :
    t.txh = s.txh ++ [frameOf Config.wireOrder t.pb] := by
  rw [exec_draw_of_glyph s glyph g hg] at h
  obtain ⟨hsent, hkept⟩ := flush_completed { s with pb := drawnBuffer (Config.glyphRom g) s.pb } t h hdone
  rw [hkept]
  exact hsent

/-- Settles O21: the frame primitive, completed, sends the frame of the drawn buffer. -/
theorem drawRendersGlyph : Obligations.DrawRendersGlyph := by
  intro s glyph g hg htakes
  have hsent := s.emitFrame_takes_withBuffer (drawnBuffer (Config.glyphRom g) s.pb) htakes
  exact ⟨_, (exec_draw_of_glyph s glyph g hg).trans (congrArg Host.Outcome.next hsent),
    pixelAt_drawnBuffer (Config.glyphRom g) s.pb, rfl⟩

/-- Settles O22: the buffer is the drawn one, read by cell and by lane, and its frame has been sent. -/
theorem drawIsLanePermutation : Obligations.DrawIsLanePermutation := by
  intro s t glyph g hg h hdone
  have hsent := draw_completed_txh s t glyph g hg h hdone
  rw [draw_pb s t glyph g hg h] at hsent ⊢
  exact ⟨pixelAt_drawnBuffer_cell _ _, pixelAt_drawnBuffer_lane _ _, laneBit_eq, hsent⟩

/-- Settles O24: both blocks hold the drawn buffer of the one glyph. -/
theorem drawForgetsEarlierBuffer : Obligations.DrawForgetsEarlierBuffer := by
  intro s s' t t' glyph hglyph h h'
  obtain ⟨g, hg⟩ : ∃ g : Fin 11, glyph.toNat = g.val := ⟨⟨glyph.toNat, by omega⟩, rfl⟩
  calc t.pb = drawnBuffer (Config.glyphRom g) s.pb := draw_pb s t glyph g hg h
    _ = drawnBuffer (Config.glyphRom g) s'.pb := drawnBuffer_eq _ _ _
    _ = t'.pb := (draw_pb s' t' glyph g hg h').symm

/-! ### The bytes of a DRAW frame (R103) -/

/-- `ON_COLOR` is full blue and nothing else. -/
theorem channelOf_onColor (c : Channel) : channelOf Config.onColor c = if c = .b then 0xFF#8 else 0x00#8 := by
  cases c <;> rfl

/-- A channel of a drawn entry is 0xFF only as the blue of a lane whose bit is 1. -/
theorem channelOf_drawnBuffer (bits : Bitmap) (pb : Vector Pixel 25) (i : Fin 25) (c : Channel) :
    channelOf (pixelAt (drawnBuffer bits pb) i) c =
      if c = .b ∧ bits.getLsbD (laneBit i) = true then 0xFF#8 else 0x00#8 := by
  rw [pixelAt_drawnBuffer_lane]
  by_cases hon : bits.getLsbD (laneBit i) = true
  case pos => simp only [if_pos hon, channelOf_onColor, and_iff_left hon]
  case neg => rw [if_neg hon, channelOf_offColor, if_neg fun hblue => hon hblue.2]

/-- Settles O23: the layout of a frame (R82), with the channels of the drawn buffer in it. -/
theorem drawFrameIsBlueOrDark : Obligations.DrawFrameIsBlueOrDark := by
  intro s t glyph g hg h hdone
  refine ⟨_, draw_completed_txh s t glyph g hg h hdone, frameOf_length _ _, fun i k => ?_⟩
  rw [frameOf_getElem?, draw_pb s t glyph g hg h, channelOf_drawnBuffer]

end Sys2Proof.Machine

/-! PROOFS. Faults, the halted block and the idle wait (60_exceptions.md), for O9 and O32 to O34. -/

namespace Sys2Proof.Machine

open Sys2Proof

/-! ### The steps that take no word (R123, R131) -/

/-- Settles O34: the step of a halted block (`step_of_halted`). -/
theorem haltedBlockTakesNothing : Obligations.HaltedBlockTakesNothing := fun s hfault hrst =>
  step_of_halted s hrst hfault

/-- Settles O9: the idle wait lets time pass, which moves the timer's fields alone. -/
theorem idleBlockKeepsState : Obligations.IdleBlockKeepsState := by
  intro s hrst hfault hbusy hcmd
  have hgrows : s.passTime.gapTimer > s.gapTimer := Nat.lt_add_of_pos_right (Nat.succ_pos _)
  exact ⟨s.passTime, step_of_idle s hrst hfault hbusy hcmd, rfl, hgrows⟩

/-! ### A word's fault, from its bits (R61, R120, R124) -/

/-- Code 0 names no fault (R120). -/
theorem faultNumber_ne_zero (code : FaultCode) : faultNumber code ≠ 0#3 := by
  cases code <;> decide

/-- The operation field that the checks read is the decoder's (R55). -/
theorem extractLsb_eq_opField (w : Word) : w.extractLsb 31 29 = opField w := rfl

/-- The checks of R61 on the word's bits find the fault that the decoder and the command's range check find. -/
theorem specCode_eq_wordFault (w : Word) : specCode w = (wordFault w).elim 0#3 faultNumber := by
  simp only [specCode, wordFault, extractLsb_eq_opField]
  have hd := decoding_decode w
  generalize decode w = d at hd
  cases hd with
  | illegal hop => exact if_pos ((opIllegal_iff w).mp hop)
  | reserved hres =>
    rcases (reservedSet_iff w).mp hres with ⟨hop, hres⟩ | ⟨hop, hres⟩ | ⟨hop, hres⟩ | ⟨hop, hres⟩ <;>
      simp [hop, hres, faultNumber]
  | map hop hres =>
    generalize w.extractLsb 5 3 = row, w.extractLsb 2 0 = col
    by_cases hout : 4 < row.toNat ∨ 4 < col.toNat <;> simp [hop, hres, rangeFault, hout, faultNumber]
  | setpx hop =>
    generalize w.extractLsb 28 24 = idx
    by_cases hout : 24 < idx.toNat <;> simp [hop, rangeFault, hout, faultNumber]
  | flush hop hres => simp [hop, hres, rangeFault]
  | clear hop hres => simp [hop, hres, rangeFault]
  | draw hop hres =>
    generalize w.extractLsb 3 0 = glyph
    by_cases hout : 11 ≤ glyph.toNat <;> simp [hop, hres, rangeFault, hout, faultNumber]

/-! ### The run of a word, by its fault (R121, R122) -/

/-- A word with a fault takes it, whether the decoder or the command's range check finds it, and records itself. -/
theorem runWord_of_wordFault (w : Word) (s : State) (code : FaultCode) (h : wordFault w = some code) :
    runWord w s = .next (s.raise code w) := by
  unfold wordFault at h
  unfold runWord
  cases hd : decode w with
  | error code' =>
    simp only [hd, Option.some.injEq] at h
    rw [h]
  | ok i =>
    simp only [hd] at h
    simp only [exec_of_rangeFault i s code h, encodeOfDecodedWord w i hd]

/-- The frame primitive, with the buffer that a command has written, leaves the fault registers as they were. -/
theorem State.emitFrame_keeps_faultRegisters (s : State) (pb : Vector Pixel 25) :
    { s with pb := pb }.emitFrame.status.fault = s.status.fault ∧
      { s with pb := pb }.emitFrame.status.fcode = s.status.fcode ∧
      { s with pb := pb }.emitFrame.faultCmd = s.faultCmd := by
  obtain ⟨-, -, hcmd, hfault, hfcode, -⟩ := State.emitFrame_keeps { s with pb := pb }
  exact ⟨hfault, hfcode, hcmd⟩

/-- A command in range leaves the fault registers as they were, whatever the channel does (R122). -/
theorem exec_keeps_faultRegisters (i : Instr) (s t : State) (hi : i.inRange = true) (h : exec i s = .next t) :
    t.status.fault = s.status.fault ∧ t.status.fcode = s.status.fcode ∧ t.faultCmd = s.faultCmd := by
  rcases exec_cases i s with ⟨row, col, -, ht⟩ | ⟨k, r, g, b, -, ht⟩ | ⟨-, ht⟩ | ⟨-, ht⟩ |
    ⟨g, -, ht⟩ | ⟨code, hcode, ht⟩ <;> obtain rfl := Host.Outcome.next.inj (ht.symm.trans h)
  · exact ⟨rfl, rfl, rfl⟩
  · exact ⟨rfl, rfl, rfl⟩
  · exact s.emitFrame_keeps_faultRegisters s.pb
  · exact s.emitFrame_keeps_faultRegisters (clearedBuffer s.pb)
  · exact s.emitFrame_keeps_faultRegisters (drawnBuffer (Config.glyphRom g) s.pb)
  · exact absurd (hcode.symm.trans ((rangeFault_eq_none_iff i).mpr hi)) (Option.some_ne_none code)

/-- A word with no fault decodes to a command in range. -/
theorem decode_of_wordFault_eq_none (w : Word) (h : wordFault w = none) :
    ∃ i, decode w = .ok i ∧ i.inRange = true := by
  unfold wordFault at h
  cases hd : decode w with
  | error code => simp [hd] at h
  | ok i => exact ⟨i, rfl, (rangeFault_eq_none_iff i).mp (by simpa only [hd] using h)⟩

/-- Settles O32: `specCode` is the word's fault, and the run of the word takes that fault or runs a command in
range. -/
theorem firstCheckDecidesFault : Obligations.FirstCheckDecidesFault := by
  intro s w rest ho
  rw [specCode_eq_wordFault, step_of_offers s w rest ho]
  cases hw : wordFault w with
  | some code =>
    refine ⟨fun _ => ⟨_, runWord_of_wordFault w (s.accept rest) code hw, rfl⟩, fun hnone => ?_⟩
    exact absurd hnone (faultNumber_ne_zero code)
  | none =>
    obtain ⟨i, hd, hi⟩ := decode_of_wordFault_eq_none w hw
    obtain ⟨t, ht, -⟩ := exec_runsWhole i (s.accept rest)
    obtain ⟨hfault, hfcode, hcmd⟩ := exec_keeps_faultRegisters i (s.accept rest) t hi ht
    have ⟨_, hfault0, _, _⟩ := ho
    refine ⟨fun hsome => absurd rfl hsome, fun _ => ⟨t, ?_, hfault.trans hfault0, hfcode, hcmd⟩⟩
    rw [runWord, hd]
    exact ht

/-! ### Precision (R122) -/

/-- A move into a fault from a running block is fault entry, which writes the fault registers alone (R121). -/
theorem Moves.precise {s t : State} (h : Moves s t) (hrun : s.status.fault = false)
    (hfault : t.status.fault = true) :
    t.pb = s.pb ∧ t.lastIdx = s.lastIdx ∧ t.txh = s.txh ∧ t.tx = s.tx ∧ t.txAccept = s.txAccept := by
  cases h with
  | fault => exact ⟨rfl, rfl, rfl, rfl, rfl⟩
  | reset => cases hfault
  | _ => exact absurd (hrun.symm.trans hfault) Bool.false_ne_true

/-- Settles O33: the moves of the block, the commands in range, and the busy block, which only reset moves. -/
theorem faultsArePrecise : Obligations.FaultsArePrecise := by
  refine ⟨fun s t hrun ht hfault => (moves_of_step s t ht).precise hrun hfault, fun s t i hi ht => ?_,
    fun s t hrun hbusy ht => ?_⟩
  · obtain ⟨hfault, -⟩ := exec_keeps_faultRegisters i s t hi ht
    exact hfault
  · cases hrst : s.rst with
    | true =>
      obtain rfl := Host.Outcome.next.inj ((step_of_reset s hrst).symm.trans ht)
      rfl
    | false => cases (step_of_busy s hrst hrun hbusy).symm.trans ht

end Sys2Proof.Machine

/-! PROOFS. Reset (70_reset_and_hazards.md R140, R141), for O35, O36 and O40. -/

namespace Sys2Proof.Machine

open Sys2Proof

/-! ### The block after reset, from any state -/

/-- Reset leaves every register address reading 0: the three stored registers are cleared (R140), and the fourth
holds nothing (R28). -/
theorem State.resetBlock_readReg (s : State) (ra : BitVec 2) : s.resetBlock.readReg ra = 0#32 := by
  have hstatus : Status.cleared.word = 0#32 := by decide
  have hlast : 0#27 ++ 0#5 = 0#32 := by decide
  unfold State.readReg
  split_ifs
  · exact hstatus
  · exact hlast
  · exact s.resetBlock_faultCmd
  · rfl

/-- Reset releases the command port (R129, R140): the block is not busy, not halted and no longer in reset. -/
theorem State.resetBlock_cmdReady (s : State) : s.resetBlock.cmdReady = true :=
  s.resetBlock.cmdReady_iff.mpr ⟨rfl, rfl, rfl⟩

/-- Reset gives the block its invariant, from a state that need not have it. -/
theorem State.resetBlock_inv (s : State) : s.resetBlock.Inv := by
  have hfaults : s.resetBlock.FaultRecorded := ⟨rfl, rfl⟩
  have hlast : s.resetBlock.LastIdxValid := Nat.zero_le 24
  have hframes : s.resetBlock.FramesWhole := List.forall_mem_nil _
  have hgap : s.resetBlock.GapKept := fun hidle => absurd hidle.symm Bool.false_ne_true
  have hsending : s.resetBlock.FrameInProgress := (s.resetBlock.frameInProgress_of_not_busy rfl).mpr rfl
  exact ⟨hfaults, hlast, hframes, hgap, hsending⟩

/-- The reset state is what reset makes of it. -/
theorem State.resetBlock_reset : State.reset.resetBlock = State.reset := rfl

/-- The command port takes nothing while reset is asserted (R129). -/
theorem State.cmdReady_of_rst (s : State) (hrst : s.rst = true) : s.cmdReady = false := by
  simp [State.cmdReady, hrst]

/-! ### The statements -/

/-- Settles O35: the step under reset (`step_of_reset`), with the command port closed before it and ready after it. -/
theorem resetWorksInEveryState : Obligations.ResetWorksInEveryState := by
  intro s hrst
  exact ⟨s.resetBlock, step_of_reset s hrst, pixelAt_blankBuffer, rfl, rfl, rfl, rfl, rfl, rfl, rfl,
    s.cmdReady_of_rst hrst, s.resetBlock_cmdReady, rfl, rfl, rfl⟩

/-- Settles O36: what reset leaves in any state, for the state it leaves as it is. -/
theorem resetStateValues : Obligations.ResetStateValues := by
  unfold Obligations.ResetStateValues
  rw [← State.resetBlock_reset]
  exact ⟨pixelAt_blankBuffer, State.reset.resetBlock_readReg, rfl, rfl, rfl, State.reset.resetBlock_cmdReady⟩

/-- Settles O40: the invariant that reset gives any state. -/
theorem resetHasInvariant : Obligations.ResetHasInvariant := State.reset.resetBlock_inv

end Sys2Proof.Machine
